-- ==== Sys2Proof/Word.lean ====
section
/-! DEFINITION. The words of the inflate core: a byte of host memory, a host word (32 bits, rule R7), and the two halves of a span register pair. -/

namespace Sys2Proof

/-- One byte of the stream, of host memory and of the window (rules R80, R82). -/
abbrev Byte := BitVec 8

/-- A host address, a span length or a register of the register block: 32 bits (rules R7, R61). -/
abbrev Word := BitVec 32

/-- Which register of a span pair a host write addresses: the pointer (offsets 0x08, 0x10) or the length (offsets 0x0C, 0x14) (rules R61, R493, R494). -/
inductive SpanHalf where
  | ptr
  | len
  deriving DecidableEq, Repr

end Sys2Proof
end

