-- ==== Sys2Proof/Machine/Bits.lean ====
section
/-! DEFINITION. Bit strings in stream order, field values and bit reversal (rules R8 to R12, R238). -/

namespace Sys2Proof.Machine

/-- `rev_k(x)`: the low `k` bits of `x` in reverse order (rule R238). -/
def rev : Nat → Nat → Nat
  | 0, _ => 0
  | k + 1, x => (x % 2) * 2 ^ k + rev k (x / 2)

/-- The integer of a bit string in stream order, first bit least significant (rules R10, R11). -/
def bitsVal : List Bool → Nat
  | [] => 0
  | b :: bs => b.toNat + 2 * bitsVal bs

/-- `field(n)` as it stands in the stream: `n` bits of `v`, least significant first (rule R11). -/
def fieldBits (n v : Nat) : List Bool :=
  (List.range n).map fun i => v.testBit i

/-- A Huffman code of length `k` and canonical value `c` as it stands in the stream: most significant bit first (rule R12). -/
def codeBits (k c : Nat) : List Bool :=
  (List.range k).map fun i => c.testBit (k - 1 - i)

/-- The first eight bits of a bit string as a byte, missing bits 0 (rule R10). -/
def byteOfBits (bs : List Bool) : Byte :=
  BitVec.ofNat 8 (bitsVal (bs.take 8))

/-- A bit string packed into at most `n` bytes in stream order, the last one padded with 0 (rule R10). -/
def bytesOfBits : Nat → List Bool → List Byte
  | 0, _ => []
  | n + 1, bs => if bs.isEmpty then [] else byteOfBits bs :: bytesOfBits n (bs.drop 8)

end Sys2Proof.Machine
end

