-- ==== Sys2Proof/Config.lean ====
section
/-! DEFINITION. What one implementation fixes: the parameters of rule R5, the open parameters of rule R6 and rule R61 (constants with no body), and the free values that stand for what the spec calls unspecified (rules R253, R611). Nothing can evaluate an opaque constant here, so no proof can lean on its value. -/

namespace Sys2Proof.Config

/-! ## Fixed parameters (rule R5) -/

/-- `WSIZE`, the window size in bytes. -/
def wsize : Nat := 32768
/-- `LROOT`, the root width of the literal/length table. -/
def lroot : Nat := 9
/-- `DROOT`, the root width of the distance table. -/
def droot : Nat := 7
/-- `CROOT`, the root width of the code-length table. -/
def croot : Nat := 7
/-- `LCAP`, the capacity of `LT`, root table included. -/
def lcap : Nat := 854
/-- `DCAP`, the capacity of `DT`, root table included. -/
def dcap : Nat := 402
/-- `CCAP`, the capacity of `CT`. -/
def ccap : Nat := 128
/-- The size of the length vector `lens` (rule R43). -/
def lensSize : Nat := 320
/-- The size of `clens` (rule R42). -/
def clensSize : Nat := 19
/-- The longest Huffman code, in bits. -/
def maxCodeLen : Nat := 15
/-- The size of host memory in bytes (rules R7, R80). -/
def memSize : Nat := 4294967296

/-! ## Open parameters (rules R6, R61), log entry 8 -/

/-- The two reservoir widths rule R6 allows. -/
inductive ResWidth where
  | w32
  | w64
  deriving DecidableEq, Repr, Inhabited

/-- `RES_W` as a number of bits. -/
def ResWidth.bits : ResWidth → Nat
  | .w32 => 32
  | .w64 => 64

/-- `RES_W`, open: no result depends on it (rule R211). -/
opaque resWidth : ResWidth
/-- `FAST_PATH`, open: no result depends on it (rule R470). -/
opaque fastPath : Bool
/-- `REG_BASE`, open: the platform address of the register block (rules R61, R91). -/
opaque regBase : Word

/-- `FP_SRC`, the source guard of the fast path (rules R6, R471). -/
def fpSrc : ResWidth → Nat
  | .w64 => 14
  | .w32 => 10
/-- `FP_DST`, the target guard of the fast path (rules R6, R471). -/
def fpDst : ResWidth → Nat
  | .w64 => 274
  | .w32 => 266

/-! ## Free values (rules R253, R611), log entries 4 and 5

Each is applied to the draw counter of State, and an array also to its index. -/

/-- `SRC_PTR` after an error (rule R611). -/
opaque freeSrcPtr : Nat → Word
/-- `SRC_LEN` after an error (rule R611). -/
opaque freeSrcLen : Nat → Word
/-- `DST_PTR` after an error (rule R611). -/
opaque freeDstPtr : Nat → Word
/-- `DST_LEN` after an error (rule R611). -/
opaque freeDstLen : Nat → Word
/-- `bc` after an error, before its bound `RES_W` is applied (rules R38, R611). -/
opaque freeBc : Nat → Nat
/-- `res` after an error, before the bits above `bc` are cleared (rules R39, R611). -/
opaque freeRes : Nat → BitVec 64
/-- `w_end` after an error (rule R611). -/
opaque freeWEnd : Nat → BitVec 15
/-- `w_count` after an error, before its bound 32768 is applied (rules R56, R611). -/
opaque freeWCount : Nat → Nat
/-- The window byte at an index after an error (rule R611). -/
opaque freeWindow : Nat → Nat → Byte
/-- A byte of the target span that no element produced, by address, after an error (rule R611). -/
opaque freeTarget : Nat → Nat → Byte
/-- The three packed fields of a table entry after a failed build, by index (rule R253). -/
opaque freeEntryBits : Nat → Nat → BitVec 32

end Sys2Proof.Config
end

