-- ==== Sys2Proof/Machine/Types.lean ====
section
/-! DEFINITION. The plain types of the machine's parts: block state and sub-phases (rules R31, R40, R41, R44, R49), status and error codes (rules R34, R600), table entries (rule R53), and what a host can do to the core (rules R61, R93, R97). -/

namespace Sys2Proof.Machine

/-- The block state `bstate` (rule R31). -/
inductive BState where
  | uninit
  | needHeader
  | stored
  | fixed
  | dynamic
  | decoding
  | finalConsumed
  | bad
  deriving DecidableEq, Repr

/-- The stored-block sub-phase `sphase` (rule R40). -/
inductive SPhase where
  | lenHdr
  | copy
  deriving DecidableEq, Repr

/-- The dynamic-header sub-phase `dphase` (rule R41). -/
inductive DPhase where
  | counts
  | clens
  | lens
  | rep
  deriving DecidableEq, Repr

/-- The DECODING substate `sub`, 0 to 4 in this order (rule R44). -/
inductive Substate where
  | litLen
  | lenExtra
  | distSym
  | distExtra
  | copy
  deriving DecidableEq, Repr

/-- The table selector `tsel` (rule R49). -/
inductive TSel where
  | fixed
  | dynamic
  deriving DecidableEq, Repr

/-- The result of the last command, `status` (rule R34). -/
inductive Status where
  | ok
  | sourceExhausted
  | targetExhausted
  | error
  deriving DecidableEq, Repr

/-- The stored error code, `err` (rules R33, R600). `oom` is never raised (rule R602). -/
inductive ErrCode where
  | none
  | badState
  | oom
  | badBlock
  | badTree
  | badCode
  | farOffset
  | inputEnd
  deriving DecidableEq, Repr

/-- A table entry (rule R53). -/
structure Entry where
  info   : BitVec 16
  tag    : BitVec 8
  length : BitVec 8
  deriving DecidableEq, Repr

/-- The three modes of the table builder (rule R231). -/
inductive Mode where
  | lens
  | dists
  | codes
  deriving DecidableEq, Repr

/-- The width of a host access to the register block; rule R61 allows only aligned words. -/
inductive AccessSize where
  | byte
  | half
  | word
  deriving DecidableEq, Repr

/-- What the host does to the core and its memory, one at a time and only between commands (rules R30, R61, R93): a register write or read, at an offset from `REG_BASE`, or a store of its own to host memory (rules R97, R98, R708, R709). -/
inductive HostAction where
  | write (off : Word) (size : AccessSize) (val : Word)
  | read (off : Word) (size : AccessSize)
  | poke (addr : Word) (v : Byte)
  deriving DecidableEq, Repr

end Sys2Proof.Machine
end

