-- ==== Sys2Proof/Machine/Ram.lean ====
section
/-! DEFINITION. One storage form for host memory and for every RAM of the core (rule R80): a list of (index, value) pairs, indices strictly rising, no entry equal to the value an unlisted index reads as. -/

namespace Sys2Proof.Machine

/-- A RAM as plain data. -/
abbrev Ram (α : Type) := List (Nat × α)

/-- Reading index `i`: an unlisted index reads as `d`. -/
def Ram.read {α : Type} (d : α) : Ram α → Nat → α
  | [], _ => d
  | (j, v) :: m, i => if i = j then v else if i < j then d else Ram.read d m i

/-- Writing `v` at index `i`; writing the value an unlisted index reads as removes the entry. -/
def Ram.put {α : Type} [DecidableEq α] (d : α) (i : Nat) (v : α) : Ram α → Ram α
  | [] => if v = d then [] else [(i, v)]
  | (j, w) :: m =>
    if i < j then (if v = d then (j, w) :: m else (i, v) :: (j, w) :: m)
    else if i = j then (if v = d then m else (i, v) :: m)
    else (j, w) :: Ram.put d i v m

/-- Writing in a RAM of `size` entries: an index outside it names no entry, and nothing is written. -/
def Ram.write {α : Type} [DecidableEq α] (size : Nat) (d : α) (i : Nat) (v : α) (m : Ram α) : Ram α :=
  if i < size then Ram.put d i v m else m

/-- The RAM of `size` entries whose entry `i` is `f i`. -/
def Ram.ofFn {α : Type} [DecidableEq α] (size : Nat) (d : α) (f : Nat → α) : Ram α :=
  (List.range size).filterMap fun i => if f i = d then none else some (i, f i)

/-- The canonical form from index `lo` on: indices rise strictly from `lo` and stay below `size`, and no value is `d`. -/
def Ram.wfFrom {α : Type} [DecidableEq α] (size : Nat) (d : α) : Nat → Ram α → Bool
  | _, [] => true
  | lo, (j, v) :: m => decide (lo ≤ j) && decide (j < size) && decide (v ≠ d) && Ram.wfFrom size d (j + 1) m

/-- The canonical form of a RAM of `size` entries. -/
def Ram.wf {α : Type} [DecidableEq α] (size : Nat) (d : α) (m : Ram α) : Bool :=
  Ram.wfFrom size d 0 m

/-- Host memory (rules R80, R82). -/
abbrev Memory := List Host.Cell

/-- What an address of host memory that nothing has written reads as: 0. DESIGN CHOICE, unsafe, log entry 2. -/
def Memory.blank : Byte := 0

/-- `MemRead(a, 1)` (rule R82). -/
def Memory.read (m : Memory) (a : Word) : Byte :=
  Ram.read Memory.blank m a.toNat

/-- `MemWrite(a, 1, v)` (rule R82). -/
def Memory.write (m : Memory) (a : Word) (v : Byte) : Memory :=
  Ram.write Config.memSize Memory.blank a.toNat v m

/-- The canonical form of host memory. -/
def Memory.wf (m : Memory) : Bool :=
  Ram.wf Config.memSize Memory.blank m

end Sys2Proof.Machine
end

