-- ==== Sys2Proof/Machine/Tables.lean ====
section
/-! DEFINITION. The length and distance tables (rules R454, R455), the Huffman table builder (rules R230 to R254), the fixed ROMs (rules R251, R252) and the table lookup of `decode` (rule R382). -/

namespace Sys2Proof.Machine

/-! ## Table entries (rule R53) -/

/-- Tag LITERAL. -/
def tagLiteral : BitVec 8 := 0x10#8
/-- Tag END_OF_BLOCK. -/
def tagEndOfBlock : BitVec 8 := 0x11#8
/-- Tag SUBTABLE. -/
def tagSubtable : BitVec 8 := 0x12#8
/-- Tag INVALID. -/
def tagInvalid : BitVec 8 := 0x13#8

/-- An entry from numbers. -/
def Entry.of (tag info length : Nat) : Entry :=
  { info := BitVec.ofNat 16 info, tag := BitVec.ofNat 8 tag, length := BitVec.ofNat 8 length }

/-- The entry of a RAM cell that holds 0. -/
def Entry.zero : Entry := Entry.of 0 0 0

/-- The packing of rule R53: `info[15:0]`, `tag[23:16]`, `length[31:24]`. -/
def Entry.pack (e : Entry) : BitVec 32 :=
  e.length ++ e.tag ++ e.info

/-- The fields of a packed entry (rule R53). -/
def Entry.unpack (b : BitVec 32) : Entry :=
  { info := b.extractLsb' 0 16, tag := b.extractLsb' 16 8, length := b.extractLsb' 24 8 }

/-- The filler of an unused slot, `INVALID, 0, 1` (rule R245). -/
def fillerEntry : Entry := Entry.of 0x13 0 1

/-! ## Length and distance tables (rules R454, R455) -/

/-- Base and extra bits of length symbols 257 to 285, in order (rule R454). -/
def lengthTable : List (Nat × Nat) :=
  [(3, 0), (4, 0), (5, 0), (6, 0), (7, 0), (8, 0), (9, 0), (10, 0)] ++
  [(11, 1), (13, 1), (15, 1), (17, 1), (19, 2), (23, 2), (27, 2), (31, 2)] ++
  [(35, 3), (43, 3), (51, 3), (59, 3), (67, 4), (83, 4), (99, 4), (115, 4)] ++
  [(131, 5), (163, 5), (195, 5), (227, 5), (258, 0)]

/-- Base and extra bits of distance symbols 0 to 29, in order (rule R455). -/
def distanceTable : List (Nat × Nat) :=
  [(1, 0), (2, 0), (3, 0), (4, 0), (5, 1), (7, 1), (9, 2), (13, 2)] ++
  [(17, 3), (25, 3), (33, 4), (49, 4), (65, 5), (97, 5), (129, 6), (193, 6)] ++
  [(257, 7), (385, 7), (513, 8), (769, 8), (1025, 9), (1537, 9), (2049, 10), (3073, 10)] ++
  [(4097, 11), (6145, 11), (8193, 12), (12289, 12), (16385, 13), (24577, 13)]

/-- `LBASE(s)` (rule R454). -/
def lbase (s : Nat) : Nat := (lengthTable.getD (s - 257) (0, 0)).1
/-- `LEXTRA(s)` (rule R454). -/
def lextra (s : Nat) : Nat := (lengthTable.getD (s - 257) (0, 0)).2
/-- `DBASE(t)` (rule R455). -/
def dbase (t : Nat) : Nat := (distanceTable.getD t (0, 0)).1
/-- `DEXTRA(t)` (rule R455). -/
def dextra (t : Nat) : Nat := (distanceTable.getD t (0, 0)).2

/-- The length symbol with this base and these extra bits: the two fields an entry or the aux registers hold (rules R248, R386). -/
def lengthSymbol (base extra : Nat) : Option Nat :=
  (lengthTable.findIdx? fun p => p.1 == base && p.2 == extra).map (· + 257)

/-- The distance symbol with this base and these extra bits (rules R249, R418). -/
def distanceSymbol (base extra : Nat) : Option Nat :=
  distanceTable.findIdx? fun p => p.1 == base && p.2 == extra

/-- `ORDER` (rule R126). -/
def clOrder : List Nat := [16, 17, 18, 0, 8, 7, 9, 6, 10, 5, 11, 4, 12, 3, 13, 2, 14, 1, 15]

/-! ## Builder (rules R230 to R254) -/

/-- The root width of a mode (rule R231). -/
def Mode.root : Mode → Nat
  | .lens => Config.lroot
  | .dists => Config.droot
  | .codes => Config.croot

/-- The capacity of a mode's table (rule R231). -/
def Mode.cap : Mode → Nat
  | .lens => Config.lcap
  | .dists => Config.dcap
  | .codes => Config.ccap

/-- `entry(i, k)` (rules R248, R249, R250). -/
def symEntry (m : Mode) (i k : Nat) : Entry :=
  match m with
  | .lens =>
    if i < 256 then Entry.of 0x10 i k
    else if i = 256 then Entry.of 0x11 0 k
    else if i < 286 then Entry.of (lextra i) (lbase i) k
    else Entry.of 0x13 0 k
  | .dists => if i < 30 then Entry.of (dextra i) (dbase i) k else Entry.of 0x13 0 k
  | .codes => Entry.of 0x10 i k

/-- `count[k]` for `k` in 1 to 15 (rule R232). -/
def countLen (L : List Nat) (k : Nat) : Nat := L.count k

/-- `left` after the loop of rule R233 has run for lengths 1 to `k`. -/
def leftAfter (L : List Nat) : Nat → Int
  | 0 => 1
  | k + 1 => 2 * leftAfter L k - countLen L (k + 1)

/-- `used`, the number of symbols with a code (rule R232). -/
def usedSymbols (L : List Nat) : Nat :=
  ((List.range 15).map fun k => countLen L (k + 1)).sum

/-- The code is over-subscribed (rule R233). -/
def overSubscribed (L : List Nat) : Bool :=
  (List.range 15).any fun k => decide (leftAfter L (k + 1) < 0)

/-- The two incomplete codes that mode DISTS permits (rule R234). -/
def permittedIncomplete (m : Mode) (L : List Nat) : Bool :=
  m == .dists && (usedSymbols L == 0 || (usedSymbols L == 1 && countLen L 1 == 1))

/-- The checks of rules R233 and R234. -/
def validLengths (m : Mode) (L : List Nat) : Bool :=
  !overSubscribed L && (leftAfter L 15 == 0 || permittedIncomplete m L)

/-- `next[k]` before any symbol of length `k` has its code: the first code of that length (rule R236). -/
def firstCode (L : List Nat) : Nat → Nat
  | 0 => 0
  | k + 1 => if k = 0 then 0 else 2 * (firstCode L k + countLen L k)

/-- `c_i`, the canonical code of symbol `i` (rules R236, R237). -/
def canonicalCode (L : List Nat) (i : Nat) : Nat :=
  firstCode L (L.getD i 0) + (L.take i).count (L.getD i 0)

/-- A symbol with a code: its length and the bit reversal of its code (rule R238). -/
structure SymCode where
  sym : Nat
  len : Nat
  rev : Nat
  deriving DecidableEq, Repr

/-- The symbols with a code, in symbol order (rules R236, R238). -/
def symCodes (L : List Nat) : List SymCode :=
  (List.range L.length).filterMap fun i =>
    if L.getD i 0 = 0 then none
    else some { sym := i, len := L.getD i 0, rev := rev (L.getD i 0) (canonicalCode L i) }

/-- `kmax(p)`, 0 where no symbol longer than the root width passes through root slot `p` (rule R240). -/
def kmax (root : Nat) (cs : List SymCode) (p : Nat) : Nat :=
  (cs.filter fun c => decide (root < c.len) && c.rev % 2 ^ root == p).foldl (fun a c => max a c.len) 0

/-- A subtable: the root slot it hangs under, its first index and its longest code (rules R240, R241). -/
structure Subtable where
  slot : Nat
  base : Nat
  kmax : Nat
  deriving DecidableEq, Repr

/-- The symbols with codes longer than the root width, by increasing (length, symbol) (rule R241). -/
def longCodes (root : Nat) (cs : List SymCode) : List SymCode :=
  (List.range 16).flatMap fun k => if root < k then cs.filter fun c => c.len == k else []

/-- The allocation walk of rule R241: the subtables so far and `nextfree`. -/
def allocate (root : Nat) (cs : List SymCode) : List SymCode → List Subtable × Nat → List Subtable × Nat
  | [], acc => acc
  | c :: rest, (subs, free) =>
    let p := c.rev % 2 ^ root
    if subs.any fun t => t.slot == p then allocate root cs rest (subs, free)
    else
      let k := kmax root cs p
      allocate root cs rest (subs ++ [{ slot := p, base := free, kmax := k }], free + 2 ^ (k - root))

/-- The subtables of a code and the final `nextfree` (rule R241). -/
def subtables (root : Nat) (cs : List SymCode) : List Subtable × Nat :=
  allocate root cs (longCodes root cs) ([], 2 ^ root)

/-- The entry of root slot `x` (rules R239, R242, R245). -/
def rootSlot (m : Mode) (cs : List SymCode) (subs : List Subtable) (x : Nat) : Entry :=
  match cs.find? fun c => decide (c.len ≤ m.root) && x % 2 ^ c.len == c.rev with
  | some c => symEntry m c.sym c.len
  | none =>
    match subs.find? fun t => t.slot == x with
    | some t => Entry.of 0x12 t.base t.kmax
    | none => fillerEntry

/-- The entry of slot `q` of subtable `t` (rule R243). Rule R243 fills every slot of a subtable of a complete code; the filler stands for the others. -/
def subSlot (m : Mode) (cs : List SymCode) (t : Subtable) (q : Nat) : Entry :=
  match cs.find? fun c => decide (m.root < c.len) && c.rev % 2 ^ m.root == t.slot && q % 2 ^ (c.len - m.root) == c.rev >>> m.root with
  | some c => symEntry m c.sym c.len
  | none => fillerEntry

/-- The entry of index `x` below `nextfree` (rules R239 to R245). -/
def tableSlot (m : Mode) (cs : List SymCode) (subs : List Subtable) (x : Nat) : Entry :=
  if x < 2 ^ m.root then rootSlot m cs subs x
  else
    match subs.find? fun t => decide (t.base ≤ x) && decide (x < t.base + 2 ^ (t.kmax - m.root)) with
    | some t => subSlot m cs t (x - t.base)
    | none => fillerEntry

/-- `build(L, mode)` into a table RAM that held `old`: the new contents, or nothing where the build fails (rules R230 to R254). Indices from `nextfree` on are not written. DEDUCED, log entry 16. -/
def build (m : Mode) (L : List Nat) (old : Ram Entry) : Option (Ram Entry) :=
  if validLengths m L then
    let cs := symCodes L
    let subs := subtables m.root cs
    if m.cap < subs.2 then none
    else some (Ram.ofFn m.cap Entry.zero fun x =>
      if x < subs.2 then tableSlot m cs subs.1 x else Ram.read Entry.zero old x)
  else none

/-! ## Fixed ROMs (rules R251, R252) -/

/-- The code lengths of the fixed literal/length code (rules R131, R251). -/
def fixedLitLens : List Nat :=
  List.replicate 144 8 ++ List.replicate 112 9 ++ List.replicate 24 7 ++ List.replicate 8 8

/-- The code lengths of the fixed distance code (rules R132, R252). -/
def fixedDistLens : List Nat := List.replicate 32 5

/-- `LT_FIXED[x]`, `x` below 512, in closed form (rule R251). -/
def ltFixed (x : Nat) : Entry :=
  if rev 7 (x % 128) ≤ 0x17 then symEntry .lens (256 + rev 7 (x % 128)) 7
  else if 0x30 ≤ rev 8 (x % 256) ∧ rev 8 (x % 256) ≤ 0xBF then symEntry .lens (rev 8 (x % 256) - 0x30) 8
  else if 0xC0 ≤ rev 8 (x % 256) ∧ rev 8 (x % 256) ≤ 0xC7 then symEntry .lens (280 + rev 8 (x % 256) - 0xC0) 8
  else symEntry .lens (144 + rev 9 x - 0x190) 9

/-- `DT_FIXED[x]`, `x` below 128, in closed form (rule R252). -/
def dtFixed (x : Nat) : Entry := symEntry .dists (rev 5 (x % 32)) 5

/-! ## Lookup (rule R382) -/

/-- The entry that `decode(T, root)` selects for reservoir contents `v`: the root entry, or the replacement entry behind a SUBTABLE entry (rules R382, R242). -/
def lookup (T : Nat → Entry) (root v : Nat) : Entry :=
  let e := T (v % 2 ^ root)
  if e.tag = tagSubtable then T (e.info.toNat + (v % 2 ^ e.length.toNat) >>> root) else e

/-- The three tables a decoder reads (rules R49, R52). -/
structure Codebook where
  ct : Nat → Entry
  lt : Nat → Entry
  dt : Nat → Entry

end Sys2Proof.Machine
end

