-- ==== Sys2Proof/Syntax.lean ====
section
/-! DEFINITION. The instructions: one constructor for each row of spec/opcode_table.json, the elements of the compressed stream (rule R138) and the commands of the host (rule R139), with the operands of rule R136. -/

namespace Sys2Proof

/-- A stream element or a host command. -/
inductive Instr where
  /-- `BLOCK final, STORED`: a stored block follows (rules R121, R312). -/
  | blockStored (final : Bool)
  /-- `BLOCK final, FIXED`: a fixed-Huffman block follows (rules R121, R313). -/
  | blockFixed (final : Bool)
  /-- `BLOCK final, DYNAMIC`: a dynamic-Huffman block follows (rules R121, R314). -/
  | blockDynamic (final : Bool)
  /-- `BLOCK final, RESERVED`: block type 3, an error (rules R121, R315). -/
  | blockReserved (final : Bool)
  /-- `STOREDHDR`: LEN and NLEN of a stored block; the pad before them is dropped by `align` (rules R123, R316). -/
  | storedhdr (len : BitVec 16) (nlen : BitVec 16)
  /-- The DATA bytes of a stored block; the count stands in `srem` (rules R123, R317). -/
  | storedData
  /-- `DYNHDR`: the raw fields HLIT', HDIST' and HCLEN' (rules R125, R340). -/
  | dynhdr (hlit : BitVec 5) (hdist : BitVec 5) (hclen : BitVec 4)
  /-- `CLL`: one code-length code length (rules R125, R342). -/
  | cll (len : BitVec 3)
  /-- Code-length symbol 0: the next code length is 0 (rules R127, R345). -/
  | cl0
  /-- Code-length symbol 1: the next code length is 1 (rules R127, R345). -/
  | cl1
  /-- Code-length symbol 2: the next code length is 2 (rules R127, R345). -/
  | cl2
  /-- Code-length symbol 3: the next code length is 3 (rules R127, R345). -/
  | cl3
  /-- Code-length symbol 4: the next code length is 4 (rules R127, R345). -/
  | cl4
  /-- Code-length symbol 5: the next code length is 5 (rules R127, R345). -/
  | cl5
  /-- Code-length symbol 6: the next code length is 6 (rules R127, R345). -/
  | cl6
  /-- Code-length symbol 7: the next code length is 7 (rules R127, R345). -/
  | cl7
  /-- Code-length symbol 8: the next code length is 8 (rules R127, R345). -/
  | cl8
  /-- Code-length symbol 9: the next code length is 9 (rules R127, R345). -/
  | cl9
  /-- Code-length symbol 10: the next code length is 10 (rules R127, R345). -/
  | cl10
  /-- Code-length symbol 11: the next code length is 11 (rules R127, R345). -/
  | cl11
  /-- Code-length symbol 12: the next code length is 12 (rules R127, R345). -/
  | cl12
  /-- Code-length symbol 13: the next code length is 13 (rules R127, R345). -/
  | cl13
  /-- Code-length symbol 14: the next code length is 14 (rules R127, R345). -/
  | cl14
  /-- Code-length symbol 15: the next code length is 15 (rules R127, R345). -/
  | cl15
  /-- Code-length symbol 16: repeat the previous length 3 + extra times (rules R127, R346). -/
  | rep16 (extra : BitVec 2)
  /-- Code-length symbol 17: 3 + extra zero lengths (rules R127, R347). -/
  | rep17 (extra : BitVec 3)
  /-- Code-length symbol 18: 11 + extra zero lengths (rules R127, R348). -/
  | rep18 (extra : BitVec 7)
  /-- `LIT b`, literal/length symbols 0 to 255 (rules R128, R384). -/
  | lit (byte : Byte)
  /-- `EOB`, literal/length symbol 256 (rules R128, R385). -/
  | eob
  /-- Length symbol 257: length 3 (rule R387). -/
  | len257
  /-- Length symbol 258: length 4 (rule R388). -/
  | len258
  /-- Length symbol 259: length 5 (rule R389). -/
  | len259
  /-- Length symbol 260: length 6 (rule R390). -/
  | len260
  /-- Length symbol 261: length 7 (rule R391). -/
  | len261
  /-- Length symbol 262: length 8 (rule R392). -/
  | len262
  /-- Length symbol 263: length 9 (rule R393). -/
  | len263
  /-- Length symbol 264: length 10 (rule R394). -/
  | len264
  /-- Length symbol 265: length 11 + extra (rule R395). -/
  | len265 (extra : BitVec 1)
  /-- Length symbol 266: length 13 + extra (rule R396). -/
  | len266 (extra : BitVec 1)
  /-- Length symbol 267: length 15 + extra (rule R397). -/
  | len267 (extra : BitVec 1)
  /-- Length symbol 268: length 17 + extra (rule R398). -/
  | len268 (extra : BitVec 1)
  /-- Length symbol 269: length 19 + extra (rule R399). -/
  | len269 (extra : BitVec 2)
  /-- Length symbol 270: length 23 + extra (rule R400). -/
  | len270 (extra : BitVec 2)
  /-- Length symbol 271: length 27 + extra (rule R401). -/
  | len271 (extra : BitVec 2)
  /-- Length symbol 272: length 31 + extra (rule R402). -/
  | len272 (extra : BitVec 2)
  /-- Length symbol 273: length 35 + extra (rule R403). -/
  | len273 (extra : BitVec 3)
  /-- Length symbol 274: length 43 + extra (rule R404). -/
  | len274 (extra : BitVec 3)
  /-- Length symbol 275: length 51 + extra (rule R405). -/
  | len275 (extra : BitVec 3)
  /-- Length symbol 276: length 59 + extra (rule R406). -/
  | len276 (extra : BitVec 3)
  /-- Length symbol 277: length 67 + extra (rule R407). -/
  | len277 (extra : BitVec 4)
  /-- Length symbol 278: length 83 + extra (rule R408). -/
  | len278 (extra : BitVec 4)
  /-- Length symbol 279: length 99 + extra (rule R409). -/
  | len279 (extra : BitVec 4)
  /-- Length symbol 280: length 115 + extra (rule R410). -/
  | len280 (extra : BitVec 4)
  /-- Length symbol 281: length 131 + extra (rule R411). -/
  | len281 (extra : BitVec 5)
  /-- Length symbol 282: length 163 + extra (rule R412). -/
  | len282 (extra : BitVec 5)
  /-- Length symbol 283: length 195 + extra (rule R413). -/
  | len283 (extra : BitVec 5)
  /-- Length symbol 284: length 227 + extra (rule R414). -/
  | len284 (extra : BitVec 5)
  /-- Length symbol 285: length 258 (rule R415). -/
  | len285
  /-- Literal/length symbol 286 of the fixed code, an error (rule R416). -/
  | ll286Invalid
  /-- Literal/length symbol 287 of the fixed code, an error (rule R416). -/
  | ll287Invalid
  /-- Distance symbol 0: distance 1 (rule R419). -/
  | dist0
  /-- Distance symbol 1: distance 2 (rule R420). -/
  | dist1
  /-- Distance symbol 2: distance 3 (rule R421). -/
  | dist2
  /-- Distance symbol 3: distance 4 (rule R422). -/
  | dist3
  /-- Distance symbol 4: distance 5 + extra (rule R423). -/
  | dist4 (extra : BitVec 1)
  /-- Distance symbol 5: distance 7 + extra (rule R424). -/
  | dist5 (extra : BitVec 1)
  /-- Distance symbol 6: distance 9 + extra (rule R425). -/
  | dist6 (extra : BitVec 2)
  /-- Distance symbol 7: distance 13 + extra (rule R426). -/
  | dist7 (extra : BitVec 2)
  /-- Distance symbol 8: distance 17 + extra (rule R427). -/
  | dist8 (extra : BitVec 3)
  /-- Distance symbol 9: distance 25 + extra (rule R428). -/
  | dist9 (extra : BitVec 3)
  /-- Distance symbol 10: distance 33 + extra (rule R429). -/
  | dist10 (extra : BitVec 4)
  /-- Distance symbol 11: distance 49 + extra (rule R430). -/
  | dist11 (extra : BitVec 4)
  /-- Distance symbol 12: distance 65 + extra (rule R431). -/
  | dist12 (extra : BitVec 5)
  /-- Distance symbol 13: distance 97 + extra (rule R432). -/
  | dist13 (extra : BitVec 5)
  /-- Distance symbol 14: distance 129 + extra (rule R433). -/
  | dist14 (extra : BitVec 6)
  /-- Distance symbol 15: distance 193 + extra (rule R434). -/
  | dist15 (extra : BitVec 6)
  /-- Distance symbol 16: distance 257 + extra (rule R435). -/
  | dist16 (extra : BitVec 7)
  /-- Distance symbol 17: distance 385 + extra (rule R436). -/
  | dist17 (extra : BitVec 7)
  /-- Distance symbol 18: distance 513 + extra (rule R437). -/
  | dist18 (extra : BitVec 8)
  /-- Distance symbol 19: distance 769 + extra (rule R438). -/
  | dist19 (extra : BitVec 8)
  /-- Distance symbol 20: distance 1025 + extra (rule R439). -/
  | dist20 (extra : BitVec 9)
  /-- Distance symbol 21: distance 1537 + extra (rule R440). -/
  | dist21 (extra : BitVec 9)
  /-- Distance symbol 22: distance 2049 + extra (rule R441). -/
  | dist22 (extra : BitVec 10)
  /-- Distance symbol 23: distance 3073 + extra (rule R442). -/
  | dist23 (extra : BitVec 10)
  /-- Distance symbol 24: distance 4097 + extra (rule R443). -/
  | dist24 (extra : BitVec 11)
  /-- Distance symbol 25: distance 6145 + extra (rule R444). -/
  | dist25 (extra : BitVec 11)
  /-- Distance symbol 26: distance 8193 + extra (rule R445). -/
  | dist26 (extra : BitVec 12)
  /-- Distance symbol 27: distance 12289 + extra (rule R446). -/
  | dist27 (extra : BitVec 12)
  /-- Distance symbol 28: distance 16385 + extra (rule R447). -/
  | dist28 (extra : BitVec 13)
  /-- Distance symbol 29: distance 24577 + extra (rule R448). -/
  | dist29 (extra : BitVec 13)
  /-- Distance symbol 30 of the fixed code, or an unused pattern whose last bit is 0, an error (rule R449). -/
  | dist30Invalid
  /-- Distance symbol 31 of the fixed code, or an unused pattern whose last bit is 1, an error (rule R449). -/
  | dist31Invalid
  /-- CMD write with OPC 0x01 (rules R139, R491). -/
  | reset
  /-- CMD write with OPC 0x02; the operands stand in DICT_PTR and DICT_LEN (rules R139, R492). -/
  | setDictionary
  /-- CMD write with OPC 0x03; FINAL_INPUT is CMD[8] (rules R139, R495). -/
  | inflate (finalInput : Bool)
  /-- CMD write with any other OPC (rules R62, R139). -/
  | cmdReserved (opc : BitVec 8)
  /-- Write of SRC_PTR or SRC_LEN, one half of SET_SOURCE (rules R139, R493). -/
  | setSource (half : SpanHalf) (value : Word)
  /-- Write of DST_PTR or DST_LEN, one half of SET_TARGET (rules R139, R494). -/
  | setTarget (half : SpanHalf) (value : Word)
  deriving DecidableEq, Repr

end Sys2Proof
end

