-- ==== Sys2Proof/WellFormed.lean ====
section
/-! DEFINITION. Which instructions exist. The operand types already bound every field to its width (rules R121 to R128), so one check is left: a reserved command is none of the three defined ones (rule R62). -/

namespace Sys2Proof

/-- The opcodes of CMD that rule R62 defines. -/
def definedOpcode (opc : BitVec 8) : Bool :=
  opc == 0x01#8 || opc == 0x02#8 || opc == 0x03#8

/-- An instruction that some bits of the stream or some host access spell. -/
def Instr.wellFormed : Instr → Bool
  | .cmdReserved opc => !definedOpcode opc
  | .blockStored _ | .blockFixed _ | .blockDynamic _ | .blockReserved _ | .storedhdr _ _ | .storedData | .dynhdr _ _ _ | .cll _
  | .cl0 | .cl1 | .cl2 | .cl3 | .cl4 | .cl5 | .cl6 | .cl7
  | .cl8 | .cl9 | .cl10 | .cl11 | .cl12 | .cl13 | .cl14 | .cl15
  | .rep16 _ | .rep17 _ | .rep18 _ | .lit _ | .eob | .len257 | .len258 | .len259
  | .len260 | .len261 | .len262 | .len263 | .len264 | .len265 _ | .len266 _ | .len267 _
  | .len268 _ | .len269 _ | .len270 _ | .len271 _ | .len272 _ | .len273 _ | .len274 _ | .len275 _
  | .len276 _ | .len277 _ | .len278 _ | .len279 _ | .len280 _ | .len281 _ | .len282 _ | .len283 _
  | .len284 _ | .len285 | .ll286Invalid | .ll287Invalid | .dist0 | .dist1 | .dist2 | .dist3
  | .dist4 _ | .dist5 _ | .dist6 _ | .dist7 _ | .dist8 _ | .dist9 _ | .dist10 _ | .dist11 _
  | .dist12 _ | .dist13 _ | .dist14 _ | .dist15 _ | .dist16 _ | .dist17 _ | .dist18 _ | .dist19 _
  | .dist20 _ | .dist21 _ | .dist22 _ | .dist23 _ | .dist24 _ | .dist25 _ | .dist26 _ | .dist27 _
  | .dist28 _ | .dist29 _ | .dist30Invalid | .dist31Invalid | .reset | .setDictionary | .inflate _ | .setSource _ _
  | .setTarget _ _ => true

end Sys2Proof
end

