-- ==== Sys2Proof/Decode.lean ====
section
/-! DEFINITION. Decoding: which instruction the bits at a stream position, or a host write, spell (rules R121 to R133, R138, R139); and after it the encoder, from the same tables. What a position expects is context: the block state says it, not the bits (rules R310, R380). -/

namespace Sys2Proof

open Sys2Proof.Machine

/-! ## Positions -/

/-- What the stream holds next (rules R121 to R128, R310, R340, R380). The three operand positions stand between a symbol and its extra bits, where an INFLATE can be suspended (rules R344, R386, R418). -/
inductive Position where
  /-- a block header (rule R121) -/
  | hdr
  /-- LEN and NLEN, after the pad (rule R123) -/
  | storedHdr
  /-- DATA (rule R123) -/
  | storedData
  /-- HLIT, HDIST, HCLEN (rule R125) -/
  | dynHdr
  /-- one code-length code length (rule R125) -/
  | cll
  /-- a code-length symbol (rule R127) -/
  | clsym
  /-- a literal/length symbol (rule R128) -/
  | ll
  /-- a distance symbol (rule R128) -/
  | dist
  /-- the extra bits of code-length symbol `sym` (rules R346 to R348) -/
  | repExtra (sym : Nat)
  /-- the extra bits of the length symbol with this base and width (rule R417) -/
  | lenExtra (base extra : Nat)
  /-- the extra bits of the distance symbol with this base and width (rule R450) -/
  | distExtra (base extra : Nat)
  deriving DecidableEq, Repr

/-- Why bits spell no instruction. -/
inductive DecodeError where
  /-- a table entry whose fields no symbol of the alphabet has (rule R53: "every other value unused") -/
  | unusedEntry
  /-- a repeat symbol other than 16, 17 and 18 (rule R41) -/
  | unusedRepeat
  deriving DecidableEq, Repr

/-- What a decoder finds in the bits it holds. -/
inductive Decoded where
  /-- an instruction and its width -/
  | elem (i : Instr) (width : Nat)
  /-- a symbol and its width; its extra bits come next -/
  | operand (next : Position) (width : Nat)
  /-- the bits held end before the code or field does -/
  | short
  /-- no instruction, by name -/
  | reject (why : DecodeError)
  deriving DecidableEq, Repr

/-! ## Symbols to instructions (rules R127, R384 to R415, R419 to R448) -/

/-- Code-length symbols 0 to 15. -/
def clInstr : Nat → Option Instr
  | 0 => some .cl0
  | 1 => some .cl1
  | 2 => some .cl2
  | 3 => some .cl3
  | 4 => some .cl4
  | 5 => some .cl5
  | 6 => some .cl6
  | 7 => some .cl7
  | 8 => some .cl8
  | 9 => some .cl9
  | 10 => some .cl10
  | 11 => some .cl11
  | 12 => some .cl12
  | 13 => some .cl13
  | 14 => some .cl14
  | 15 => some .cl15
  | _ => none

/-- Length symbols 257 to 285 with the value of their extra bits. -/
def lengthInstr (sym x : Nat) : Option Instr :=
  match sym with
  | 257 => some .len257
  | 258 => some .len258
  | 259 => some .len259
  | 260 => some .len260
  | 261 => some .len261
  | 262 => some .len262
  | 263 => some .len263
  | 264 => some .len264
  | 265 => some (.len265 (BitVec.ofNat 1 x))
  | 266 => some (.len266 (BitVec.ofNat 1 x))
  | 267 => some (.len267 (BitVec.ofNat 1 x))
  | 268 => some (.len268 (BitVec.ofNat 1 x))
  | 269 => some (.len269 (BitVec.ofNat 2 x))
  | 270 => some (.len270 (BitVec.ofNat 2 x))
  | 271 => some (.len271 (BitVec.ofNat 2 x))
  | 272 => some (.len272 (BitVec.ofNat 2 x))
  | 273 => some (.len273 (BitVec.ofNat 3 x))
  | 274 => some (.len274 (BitVec.ofNat 3 x))
  | 275 => some (.len275 (BitVec.ofNat 3 x))
  | 276 => some (.len276 (BitVec.ofNat 3 x))
  | 277 => some (.len277 (BitVec.ofNat 4 x))
  | 278 => some (.len278 (BitVec.ofNat 4 x))
  | 279 => some (.len279 (BitVec.ofNat 4 x))
  | 280 => some (.len280 (BitVec.ofNat 4 x))
  | 281 => some (.len281 (BitVec.ofNat 5 x))
  | 282 => some (.len282 (BitVec.ofNat 5 x))
  | 283 => some (.len283 (BitVec.ofNat 5 x))
  | 284 => some (.len284 (BitVec.ofNat 5 x))
  | 285 => some .len285
  | _ => none

/-- Distance symbols 0 to 29 with the value of their extra bits. -/
def distanceInstr (sym x : Nat) : Option Instr :=
  match sym with
  | 0 => some .dist0
  | 1 => some .dist1
  | 2 => some .dist2
  | 3 => some .dist3
  | 4 => some (.dist4 (BitVec.ofNat 1 x))
  | 5 => some (.dist5 (BitVec.ofNat 1 x))
  | 6 => some (.dist6 (BitVec.ofNat 2 x))
  | 7 => some (.dist7 (BitVec.ofNat 2 x))
  | 8 => some (.dist8 (BitVec.ofNat 3 x))
  | 9 => some (.dist9 (BitVec.ofNat 3 x))
  | 10 => some (.dist10 (BitVec.ofNat 4 x))
  | 11 => some (.dist11 (BitVec.ofNat 4 x))
  | 12 => some (.dist12 (BitVec.ofNat 5 x))
  | 13 => some (.dist13 (BitVec.ofNat 5 x))
  | 14 => some (.dist14 (BitVec.ofNat 6 x))
  | 15 => some (.dist15 (BitVec.ofNat 6 x))
  | 16 => some (.dist16 (BitVec.ofNat 7 x))
  | 17 => some (.dist17 (BitVec.ofNat 7 x))
  | 18 => some (.dist18 (BitVec.ofNat 8 x))
  | 19 => some (.dist19 (BitVec.ofNat 8 x))
  | 20 => some (.dist20 (BitVec.ofNat 9 x))
  | 21 => some (.dist21 (BitVec.ofNat 9 x))
  | 22 => some (.dist22 (BitVec.ofNat 10 x))
  | 23 => some (.dist23 (BitVec.ofNat 10 x))
  | 24 => some (.dist24 (BitVec.ofNat 11 x))
  | 25 => some (.dist25 (BitVec.ofNat 11 x))
  | 26 => some (.dist26 (BitVec.ofNat 12 x))
  | 27 => some (.dist27 (BitVec.ofNat 12 x))
  | 28 => some (.dist28 (BitVec.ofNat 13 x))
  | 29 => some (.dist29 (BitVec.ofNat 13 x))
  | _ => none

/-- An instruction found, or the name of the failure. -/
def found (i : Option Instr) (width : Nat) : Decoded :=
  match i with
  | some i => .elem i width
  | none => .reject .unusedEntry

/-! ## Decoding at a position

`v` is the integer of the bits held, the next stream bit least significant, and `n` is how many there are; the bits of `v` from `n` on are 0 (rules R39, R205). -/

/-- A block header (rules R121, R122). -/
def decodeHdr (v n : Nat) : Decoded :=
  if n < 3 then .short
  else
    let final := v.testBit 0
    match v / 2 % 4 with
    | 0 => .elem (.blockStored final) 3
    | 1 => .elem (.blockFixed final) 3
    | 2 => .elem (.blockDynamic final) 3
    | _ => .elem (.blockReserved final) 3

/-- LEN and NLEN (rules R123, R316). -/
def decodeStoredHdr (v n : Nat) : Decoded :=
  if n < 32 then .short else .elem (.storedhdr (BitVec.ofNat 16 v) (BitVec.ofNat 16 (v >>> 16))) 32

/-- The three counts of a dynamic header (rules R125, R340). -/
def decodeDynHdr (v n : Nat) : Decoded :=
  if n < 14 then .short
  else .elem (.dynhdr (BitVec.ofNat 5 v) (BitVec.ofNat 5 (v >>> 5)) (BitVec.ofNat 4 (v >>> 10))) 14

/-- A code-length code length (rules R125, R342). -/
def decodeCll (v n : Nat) : Decoded :=
  if n < 3 then .short else .elem (.cll (BitVec.ofNat 3 v)) 3

/-- A code-length symbol (rules R127, R344); the tag of the entry is not tested (rule R353). -/
def decodeClsym (T : Codebook) (v n : Nat) : Decoded :=
  let e := lookup T.ct Config.croot v
  if n < e.length.toNat then .short
  else if e.info.toNat ≤ 15 then found (clInstr e.info.toNat) e.length.toNat
  else if e.info.toNat ≤ 18 then .operand (.repExtra e.info.toNat) e.length.toNat
  else .reject .unusedRepeat

/-- The extra bits of a repeat (rules R346, R347, R348). -/
def decodeRepExtra (sym v n : Nat) : Decoded :=
  match sym with
  | 16 => if n < 2 then .short else .elem (.rep16 (BitVec.ofNat 2 v)) 2
  | 17 => if n < 3 then .short else .elem (.rep17 (BitVec.ofNat 3 v)) 3
  | 18 => if n < 7 then .short else .elem (.rep18 (BitVec.ofNat 7 v)) 7
  | _ => .reject .unusedRepeat

/-- The extra bits of a length symbol, none included (rule R417). -/
def decodeLenExtra (base extra v n : Nat) : Decoded :=
  if n < extra then .short
  else found ((lengthSymbol base extra).bind fun s => lengthInstr s (v % 2 ^ extra)) extra

/-- The extra bits of a distance symbol, none included (rule R450). -/
def decodeDistExtra (base extra v n : Nat) : Decoded :=
  if n < extra then .short
  else found ((distanceSymbol base extra).bind fun s => distanceInstr s (v % 2 ^ extra)) extra

/-- A literal/length symbol (rules R383 to R416). The two INVALID symbols of the fixed code are told apart by the last bit of their code (rule R131), log entry 13. -/
def decodeLL (T : Codebook) (v n : Nat) : Decoded :=
  let e := lookup T.lt Config.lroot v
  if n < e.length.toNat then .short
  else if e.tag = tagLiteral then .elem (.lit (e.info.setWidth 8)) e.length.toNat
  else if e.tag = tagEndOfBlock then .elem .eob e.length.toNat
  else if e.tag = tagInvalid then
    .elem (if v.testBit (e.length.toNat - 1) then .ll287Invalid else .ll286Invalid) e.length.toNat
  else
    match lengthSymbol e.info.toNat e.tag.toNat with
    | none => .reject .unusedEntry
    | some s => if e.tag = 0 then found (lengthInstr s 0) e.length.toNat else .operand (.lenExtra e.info.toNat e.tag.toNat) e.length.toNat

/-- A distance symbol (rules R418 to R449). An INVALID entry is row 30 or 31 of the table by the last bit of its pattern, log entry 13. -/
def decodeDist (T : Codebook) (v n : Nat) : Decoded :=
  let e := lookup T.dt Config.droot v
  if n < e.length.toNat then .short
  else if e.tag = tagInvalid then
    .elem (if v.testBit (e.length.toNat - 1) then .dist31Invalid else .dist30Invalid) e.length.toNat
  else
    match distanceSymbol e.info.toNat e.tag.toNat with
    | none => .reject .unusedEntry
    | some s => if e.tag = 0 then found (distanceInstr s 0) e.length.toNat else .operand (.distExtra e.info.toNat e.tag.toNat) e.length.toNat

/-- One code or one field at a position: what one read of the reservoir can settle (rules R208, R382). -/
def decodeAt (T : Codebook) (p : Position) (v n : Nat) : Decoded :=
  match p with
  | .hdr => decodeHdr v n
  | .storedHdr => decodeStoredHdr v n
  | .storedData => .elem .storedData 0
  | .dynHdr => decodeDynHdr v n
  | .cll => decodeCll v n
  | .clsym => decodeClsym T v n
  | .ll => decodeLL T v n
  | .dist => decodeDist T v n
  | .repExtra s => decodeRepExtra s v n
  | .lenExtra b x => decodeLenExtra b x v n
  | .distExtra b x => decodeDistExtra b x v n

/-- A whole element at a position: its code and its extra bits (rule R133). -/
def decode (T : Codebook) (p : Position) (v n : Nat) : Decoded :=
  match decodeAt T p v n with
  | .operand q k =>
    match decodeAt T q (v >>> k) (n - k) with
    | .elem i w => .elem i (k + w)
    | .operand _ _ => .reject .unusedEntry
    | .short => .short
    | .reject r => .reject r
  | d => d

/-- A whole element in bytes of the stream (rule R10). -/
def decodeBytes (T : Codebook) (p : Position) (bytes : List Byte) : Decoded :=
  decode T p (bitsVal (bytes.flatMap fun b => fieldBits 8 b.toNat)) (8 * bytes.length)

/-- The instruction that a host write of `val` at offset `off` issues; nothing where the offset is no command's (rules R62, R139). CMD[31:9] is ignored. -/
def decodeHostWrite (off val : Word) : Option Instr :=
  if off = 0x00#32 then
    some (if val.extractLsb' 0 8 = 0x01#8 then .reset
      else if val.extractLsb' 0 8 = 0x02#8 then .setDictionary
      else if val.extractLsb' 0 8 = 0x03#8 then .inflate (val.getLsbD 8)
      else .cmdReserved (val.extractLsb' 0 8))
  else if off = 0x08#32 then some (.setSource .ptr val)
  else if off = 0x0C#32 then some (.setSource .len val)
  else if off = 0x10#32 then some (.setTarget .ptr val)
  else if off = 0x14#32 then some (.setTarget .len val)
  else none

/-! ## Encoding -/

/-- How an instruction stands outside the core: bits at a stream position, or a host write. -/
inductive Wire where
  | bits (p : Position) (bs : List Bool)
  | access (off val : Word)
  deriving DecidableEq, Repr

/-- The three codes of a block: the length and the canonical value of each symbol's code (rules R12, R236). -/
structure Codes where
  cl : Nat → Nat × Nat
  ll : Nat → Nat × Nat
  d  : Nat → Nat × Nat

/-- A symbol's code as it stands in the stream (rule R12). -/
def symbolBits (code : Nat → Nat × Nat) (s : Nat) : List Bool :=
  codeBits (code s).1 (code s).2

/-- The encoding of an instruction under given codes (rules R121 to R128, R139). -/
def encode (K : Codes) : Instr → Wire
  | .blockStored f => .bits .hdr (f :: fieldBits 2 0)
  | .blockFixed f => .bits .hdr (f :: fieldBits 2 1)
  | .blockDynamic f => .bits .hdr (f :: fieldBits 2 2)
  | .blockReserved f => .bits .hdr (f :: fieldBits 2 3)
  | .storedhdr len nlen => .bits .storedHdr (fieldBits 16 len.toNat ++ fieldBits 16 nlen.toNat)
  | .storedData => .bits .storedData []
  | .dynhdr l d c => .bits .dynHdr (fieldBits 5 l.toNat ++ fieldBits 5 d.toNat ++ fieldBits 4 c.toNat)
  | .cll l => .bits .cll (fieldBits 3 l.toNat)
  | .cl0 => .bits .clsym (symbolBits K.cl 0)
  | .cl1 => .bits .clsym (symbolBits K.cl 1)
  | .cl2 => .bits .clsym (symbolBits K.cl 2)
  | .cl3 => .bits .clsym (symbolBits K.cl 3)
  | .cl4 => .bits .clsym (symbolBits K.cl 4)
  | .cl5 => .bits .clsym (symbolBits K.cl 5)
  | .cl6 => .bits .clsym (symbolBits K.cl 6)
  | .cl7 => .bits .clsym (symbolBits K.cl 7)
  | .cl8 => .bits .clsym (symbolBits K.cl 8)
  | .cl9 => .bits .clsym (symbolBits K.cl 9)
  | .cl10 => .bits .clsym (symbolBits K.cl 10)
  | .cl11 => .bits .clsym (symbolBits K.cl 11)
  | .cl12 => .bits .clsym (symbolBits K.cl 12)
  | .cl13 => .bits .clsym (symbolBits K.cl 13)
  | .cl14 => .bits .clsym (symbolBits K.cl 14)
  | .cl15 => .bits .clsym (symbolBits K.cl 15)
  | .rep16 x => .bits .clsym (symbolBits K.cl 16 ++ fieldBits 2 x.toNat)
  | .rep17 x => .bits .clsym (symbolBits K.cl 17 ++ fieldBits 3 x.toNat)
  | .rep18 x => .bits .clsym (symbolBits K.cl 18 ++ fieldBits 7 x.toNat)
  | .lit b => .bits .ll (symbolBits K.ll b.toNat)
  | .eob => .bits .ll (symbolBits K.ll 256)
  | .len257 => .bits .ll (symbolBits K.ll 257)
  | .len258 => .bits .ll (symbolBits K.ll 258)
  | .len259 => .bits .ll (symbolBits K.ll 259)
  | .len260 => .bits .ll (symbolBits K.ll 260)
  | .len261 => .bits .ll (symbolBits K.ll 261)
  | .len262 => .bits .ll (symbolBits K.ll 262)
  | .len263 => .bits .ll (symbolBits K.ll 263)
  | .len264 => .bits .ll (symbolBits K.ll 264)
  | .len265 x => .bits .ll (symbolBits K.ll 265 ++ fieldBits 1 x.toNat)
  | .len266 x => .bits .ll (symbolBits K.ll 266 ++ fieldBits 1 x.toNat)
  | .len267 x => .bits .ll (symbolBits K.ll 267 ++ fieldBits 1 x.toNat)
  | .len268 x => .bits .ll (symbolBits K.ll 268 ++ fieldBits 1 x.toNat)
  | .len269 x => .bits .ll (symbolBits K.ll 269 ++ fieldBits 2 x.toNat)
  | .len270 x => .bits .ll (symbolBits K.ll 270 ++ fieldBits 2 x.toNat)
  | .len271 x => .bits .ll (symbolBits K.ll 271 ++ fieldBits 2 x.toNat)
  | .len272 x => .bits .ll (symbolBits K.ll 272 ++ fieldBits 2 x.toNat)
  | .len273 x => .bits .ll (symbolBits K.ll 273 ++ fieldBits 3 x.toNat)
  | .len274 x => .bits .ll (symbolBits K.ll 274 ++ fieldBits 3 x.toNat)
  | .len275 x => .bits .ll (symbolBits K.ll 275 ++ fieldBits 3 x.toNat)
  | .len276 x => .bits .ll (symbolBits K.ll 276 ++ fieldBits 3 x.toNat)
  | .len277 x => .bits .ll (symbolBits K.ll 277 ++ fieldBits 4 x.toNat)
  | .len278 x => .bits .ll (symbolBits K.ll 278 ++ fieldBits 4 x.toNat)
  | .len279 x => .bits .ll (symbolBits K.ll 279 ++ fieldBits 4 x.toNat)
  | .len280 x => .bits .ll (symbolBits K.ll 280 ++ fieldBits 4 x.toNat)
  | .len281 x => .bits .ll (symbolBits K.ll 281 ++ fieldBits 5 x.toNat)
  | .len282 x => .bits .ll (symbolBits K.ll 282 ++ fieldBits 5 x.toNat)
  | .len283 x => .bits .ll (symbolBits K.ll 283 ++ fieldBits 5 x.toNat)
  | .len284 x => .bits .ll (symbolBits K.ll 284 ++ fieldBits 5 x.toNat)
  | .len285 => .bits .ll (symbolBits K.ll 285)
  | .ll286Invalid => .bits .ll (symbolBits K.ll 286)
  | .ll287Invalid => .bits .ll (symbolBits K.ll 287)
  | .dist0 => .bits .dist (symbolBits K.d 0)
  | .dist1 => .bits .dist (symbolBits K.d 1)
  | .dist2 => .bits .dist (symbolBits K.d 2)
  | .dist3 => .bits .dist (symbolBits K.d 3)
  | .dist4 x => .bits .dist (symbolBits K.d 4 ++ fieldBits 1 x.toNat)
  | .dist5 x => .bits .dist (symbolBits K.d 5 ++ fieldBits 1 x.toNat)
  | .dist6 x => .bits .dist (symbolBits K.d 6 ++ fieldBits 2 x.toNat)
  | .dist7 x => .bits .dist (symbolBits K.d 7 ++ fieldBits 2 x.toNat)
  | .dist8 x => .bits .dist (symbolBits K.d 8 ++ fieldBits 3 x.toNat)
  | .dist9 x => .bits .dist (symbolBits K.d 9 ++ fieldBits 3 x.toNat)
  | .dist10 x => .bits .dist (symbolBits K.d 10 ++ fieldBits 4 x.toNat)
  | .dist11 x => .bits .dist (symbolBits K.d 11 ++ fieldBits 4 x.toNat)
  | .dist12 x => .bits .dist (symbolBits K.d 12 ++ fieldBits 5 x.toNat)
  | .dist13 x => .bits .dist (symbolBits K.d 13 ++ fieldBits 5 x.toNat)
  | .dist14 x => .bits .dist (symbolBits K.d 14 ++ fieldBits 6 x.toNat)
  | .dist15 x => .bits .dist (symbolBits K.d 15 ++ fieldBits 6 x.toNat)
  | .dist16 x => .bits .dist (symbolBits K.d 16 ++ fieldBits 7 x.toNat)
  | .dist17 x => .bits .dist (symbolBits K.d 17 ++ fieldBits 7 x.toNat)
  | .dist18 x => .bits .dist (symbolBits K.d 18 ++ fieldBits 8 x.toNat)
  | .dist19 x => .bits .dist (symbolBits K.d 19 ++ fieldBits 8 x.toNat)
  | .dist20 x => .bits .dist (symbolBits K.d 20 ++ fieldBits 9 x.toNat)
  | .dist21 x => .bits .dist (symbolBits K.d 21 ++ fieldBits 9 x.toNat)
  | .dist22 x => .bits .dist (symbolBits K.d 22 ++ fieldBits 10 x.toNat)
  | .dist23 x => .bits .dist (symbolBits K.d 23 ++ fieldBits 10 x.toNat)
  | .dist24 x => .bits .dist (symbolBits K.d 24 ++ fieldBits 11 x.toNat)
  | .dist25 x => .bits .dist (symbolBits K.d 25 ++ fieldBits 11 x.toNat)
  | .dist26 x => .bits .dist (symbolBits K.d 26 ++ fieldBits 12 x.toNat)
  | .dist27 x => .bits .dist (symbolBits K.d 27 ++ fieldBits 12 x.toNat)
  | .dist28 x => .bits .dist (symbolBits K.d 28 ++ fieldBits 13 x.toNat)
  | .dist29 x => .bits .dist (symbolBits K.d 29 ++ fieldBits 13 x.toNat)
  | .dist30Invalid => .bits .dist (symbolBits K.d 30)
  | .dist31Invalid => .bits .dist (symbolBits K.d 31)
  | .reset => .access 0x00#32 0x00000001#32
  | .setDictionary => .access 0x00#32 0x00000002#32
  | .inflate f => .access 0x00#32 (if f then 0x00000103#32 else 0x00000003#32)
  | .cmdReserved opc => .access 0x00#32 (opc.setWidth 32)
  | .setSource h v => .access (match h with | .ptr => 0x08#32 | .len => 0x0C#32) v
  | .setTarget h v => .access (match h with | .ptr => 0x10#32 | .len => 0x14#32) v

/-- The canonical code that a length vector gives (rule R236). -/
def codesOfLengths (L : List Nat) (s : Nat) : Nat × Nat :=
  (L.getD s 0, canonicalCode L s)

/-- The fixed literal/length code (rule R131). -/
def fixedLLCode (s : Nat) : Nat × Nat :=
  if s ≤ 143 then (8, 0x30 + s)
  else if s ≤ 255 then (9, 0x190 + (s - 144))
  else if s ≤ 279 then (7, s - 256)
  else (8, 0xC0 + (s - 280))

/-- The fixed distance code (rule R132). -/
def fixedDCode (s : Nat) : Nat × Nat := (5, s)

/-- The lengths of a code-length code in which all 19 symbols have a code: the model's own, for the words of the opcode table. DESIGN CHOICE, log entry 12. -/
def tableClLens : List Nat := List.replicate 13 4 ++ List.replicate 6 5

/-- That code as a table RAM (rules R236, R239). -/
def tableCt : Ram Entry := (build .codes tableClLens []).getD []

/-- The codes of the opcode table's words: the fixed codes, and the model's code-length code. -/
def tableCodes : Codes :=
  { cl := codesOfLengths tableClLens, ll := fixedLLCode, d := fixedDCode }

/-- The tables that decode them: the fixed ROMs (rule R54), and the model's `CT`. -/
def tableBook : Codebook :=
  { ct := Ram.read Entry.zero tableCt, lt := ltFixed, dt := dtFixed }

/-- The instruction a wire form spells. -/
def decodeWire (T : Codebook) : Wire → Option Instr
  | .bits p bs =>
    match decode T p (bitsVal bs) bs.length with
    | .elem i _ => some i
    | _ => none
  | .access off val => decodeHostWrite off val

/-! ## The words of the opcode table

A table row selects on a symbol's value, on the header bits, on CMD or on an offset (rule R138), and the rows of different formats share words. Which format a word stands for is the model's choice, log entry 12. -/

/-- The bits of a symbol's code followed by extra bits of 0. -/
def selectorBits (code : Nat → Nat × Nat) (s extra : Nat) : List Bool :=
  symbolBits code s ++ fieldBits extra 0

/-- The wire form of a code-length symbol with extra bits 0. -/
def clWire (s : Nat) : Wire :=
  .bits .clsym (selectorBits tableCodes.cl s (if s = 16 then 2 else if s = 17 then 3 else if s = 18 then 7 else 0))

/-- The wire form of a literal/length symbol with extra bits 0. -/
def llWire (s : Nat) : Wire :=
  .bits .ll (selectorBits tableCodes.ll s (if s < 257 then 0 else lextra s))

/-- The wire form of a distance symbol with extra bits 0. -/
def distWire (s : Nat) : Wire :=
  .bits .dist (selectorBits tableCodes.d s (dextra s))

/-- The wire form that a word of the opcode table stands for. -/
def tableWire (nbits w : Nat) : Option Wire :=
  if nbits = 0 then some (.bits .dynHdr (fieldBits 14 0))
  else if nbits ≤ 3 then some (.bits .hdr (fieldBits 3 w))
  else if nbits ≤ 8 then
    some (if w = 1 ∨ w = 2 ∨ w = 3 then .access 0x00#32 (BitVec.ofNat 32 w)
      else if w = 8 ∨ w = 16 then .access (BitVec.ofNat 32 w) 0
      else if w = 0 ∨ w = 4 ∨ w = 6 then .bits .hdr (fieldBits 3 w)
      else if w < 19 then clWire w
      else if w < 32 then distWire w
      else .access 0x00#32 (BitVec.ofNat 32 w))
  else if nbits ≤ 16 then (if w < 288 then some (llWire w) else none)
  else if nbits ≤ 24 then (if w = 18 then some (clWire w) else if 18 < w ∧ w < 32 then some (distWire w) else none)
  else if nbits ≤ 32 then some (if 23 < w ∧ w < 32 then distWire w else .access 0x00#32 (BitVec.ofNat 32 w))
  else none

/-- The instruction the decoder reads from a word of the opcode table. -/
def decodeTableWord (nbits w : Nat) : Option Instr :=
  (tableWire nbits w).bind (decodeWire tableBook)

end Sys2Proof
end

