-- ==== Sys2Proof/Machine/State.lean ====
section
/-! DEFINITION. The state of the machine, every field of it plain data: all that 10_state.md names, host memory, and four fields of the model's own (`inflating`, `hostQueue`, `readback`, `draws`). The state at power-on, and the ways a step can stop. -/

namespace Sys2Proof.Machine

/-- The core and the host memory it works on. -/
structure State where
  /-- `bstate` (rule R31) -/
  bstate : BState
  /-- `final`, 1 bit (rule R32) -/
  bfinal : Bool
  /-- `err`, 3 bits (rule R33) -/
  err : ErrCode
  /-- `status`, 2 bits (rule R34) -/
  status : Status
  /-- `consumed_any`, 1 bit (rule R35) -/
  consumedAny : Bool
  /-- `res`, `RES_W` bits in a register of 64 (rule R37, log entry 8) -/
  res : BitVec 64
  /-- `bc`, 7 bits (rule R38) -/
  bc : BitVec 7
  /-- `sphase`, 1 bit (rule R40) -/
  sphase : SPhase
  /-- `srem`, 16 bits (rule R40) -/
  srem : BitVec 16
  /-- `dphase`, 2 bits (rule R41) -/
  dphase : DPhase
  /-- `hlit`, 9 bits (rule R41) -/
  hlit : BitVec 9
  /-- `hdist`, 5 bits (rule R41) -/
  hdist : BitVec 5
  /-- `hclen`, 5 bits (rule R41) -/
  hclen : BitVec 5
  /-- `idx`, 9 bits (rule R41) -/
  idx : BitVec 9
  /-- `dsym`, 5 bits (rule R41) -/
  dsym : BitVec 5
  /-- `clens[0..19)`, 3 bits each (rule R42) -/
  clens : Ram (BitVec 3)
  /-- `lens[0..320)`, 4 bits each (rule R43) -/
  lens : Ram (BitVec 4)
  /-- `sub`, 3 bits (rule R44) -/
  sub : Substate
  /-- `lit_pending`, 1 bit (rule R45) -/
  litPending : Bool
  /-- `aux_len`, 9 bits (rule R46) -/
  auxLen : BitVec 9
  /-- `aux_extra`, 4 bits (rule R47) -/
  auxExtra : BitVec 4
  /-- `aux_dist`, 16 bits (rule R48) -/
  auxDist : BitVec 16
  /-- `tsel`, 1 bit (rule R49) -/
  tsel : TSel
  /-- `LT[0..854)` (rule R50) -/
  lt : Ram Entry
  /-- `DT[0..402)` (rule R51) -/
  dt : Ram Entry
  /-- `CT[0..128)` (rule R52) -/
  ct : Ram Entry
  /-- `W[0..32768)` (rule R55) -/
  window : Ram Byte
  /-- `w_end`, 15 bits (rule R55) -/
  wEnd : BitVec 15
  /-- `w_count`, 16 bits (rule R55) -/
  wCount : BitVec 16
  /-- `SRC_PTR`, 32 bits (rule R57) -/
  srcPtr : Word
  /-- `SRC_LEN`, 32 bits (rule R57) -/
  srcLen : Word
  /-- `DST_PTR`, 32 bits (rule R58) -/
  dstPtr : Word
  /-- `DST_LEN`, 32 bits (rule R58) -/
  dstLen : Word
  /-- `DICT_PTR`, 32 bits (rule R59) -/
  dictPtr : Word
  /-- `DICT_LEN`, 32 bits (rule R59) -/
  dictLen : Word
  /-- `tbegin`, 32 bits (rule R60) -/
  tbegin : Word
  /-- host memory, 2^32 bytes (rules R69, R80, R82) -/
  mem : Memory
  /-- The model's own: the INFLATE that is running and its `final_input` (rule R69), or none (log entry 9). -/
  inflating : Option Bool
  /-- The model's own: what the host does next, in order (rules R30, R93; log entry 10). -/
  hostQueue : List HostAction
  /-- The model's own: the word the host's last register read returned (rule R61; log entry 10). -/
  readback : Word
  /-- The model's own: how many draws of free values there have been (log entry 4). -/
  draws : Nat
  deriving DecidableEq, Repr

/-- Why the machine stops with a fault. No state that `Inv` (Safety.lean) admits raises one. -/
inductive Fault where
  /-- Raised by a step whose reservoir selects a table entry that no symbol has, or whose aux registers hold no symbol's base and width. Rule R53 calls such values unused and rule R246 excludes them; safe. -/
  | unusedEntry
  /-- Raised by a step with a code-length symbol above 18 or a pending repeat symbol other than 16, 17 and 18. Rules R41 and R353 exclude them; safe. -/
  | unusedRepeat
  /-- Raised by a step that would call `take_byte` without room for a byte, against its precondition (rule R202). Rule R209 excludes it; safe. -/
  | reservoirFull
  deriving DecidableEq, Repr

/-- Why the model gives a step no meaning. -/
inductive Refusal where
  /-- Raised by no meaning; for an instruction without one. -/
  | notModelled (mnemonic : String)
  /-- Raised by INFLATE, in every state but BAD, whose source span wraps (rule R86: "A model refuses"; log entry 11); safe. -/
  | sourceSpanWraps
  /-- Raised by INFLATE, in every state but BAD, whose target span wraps (rule R86; log entry 11); safe. -/
  | targetSpanWraps
  /-- Raised by SET_DICTIONARY, in every state but BAD, whose dictionary span wraps (rule R86; log entry 11); safe. -/
  | dictSpanWraps
  /-- Raised by INFLATE, in every state but BAD, whose source and target spans overlap (rule R96; log entry 11); safe. -/
  | sourceTargetOverlap
  /-- Raised by SET_DICTIONARY, in every state but BAD, whose span overlaps the target span (rule R96; log entry 11); safe. -/
  | dictTargetOverlap
  /-- Raised by a host access to the register block that is not an aligned 32-bit one (rule R61; 93_implementation_defined.md item 31); safe. -/
  | registerAccess
  deriving DecidableEq, Repr

/-- The outcome of a step or of a meaning. -/
abbrev Result := Host.Outcome State Fault Refusal

/-- How a copy of bytes ends: all of them, or at a byte that the source or the target cannot give room to (rules R200, R505). -/
inductive Flow where
  | done (s : State)
  | sourceDry (s : State)
  | targetFull (s : State)
  deriving DecidableEq, Repr

/-- The state at power-on (rules R68, R700): `bstate` = UNINIT, `err` = NONE, `status` = OK, the span registers 0. The spec leaves every other register and RAM unspecified; here they are 0 (DESIGN CHOICE, unsafe, log entry 1). -/
def State.powerOn : State where
  bstate := .uninit
  bfinal := false
  err := .none
  status := .ok
  consumedAny := false
  res := 0
  bc := 0
  sphase := .lenHdr
  srem := 0
  dphase := .counts
  hlit := 0
  hdist := 0
  hclen := 0
  idx := 0
  dsym := 0
  clens := []
  lens := []
  sub := .litLen
  litPending := false
  auxLen := 0
  auxExtra := 0
  auxDist := 0
  tsel := .fixed
  lt := []
  dt := []
  ct := []
  window := []
  wEnd := 0
  wCount := 0
  srcPtr := 0
  srcLen := 0
  dstPtr := 0
  dstLen := 0
  dictPtr := 0
  dictLen := 0
  tbegin := 0
  mem := []
  inflating := none
  hostQueue := []
  readback := 0
  draws := 0

/-- The machine right after reset: power-on (rules R68, R700). The command RESET is an instruction, and what it leaves (rule R67) is `resetRegisters` (log entry 7). -/
def State.reset : State := State.powerOn

end Sys2Proof.Machine
end

