-- ==== Sys2Proof/Machine/Flags.lean ====
section
/-! DEFINITION. Every status computation of the core: the numbers of its codes (rules R31, R34, R40, R41, R44, R49, R600), RESULT (rule R63), the span checks (rules R86, R96), and the far-offset check (rules R281, R287). -/

namespace Sys2Proof.Machine

/-- The number of a block state (rule R31). -/
def BState.code : BState → Nat
  | .uninit => 0
  | .needHeader => 1
  | .stored => 2
  | .fixed => 3
  | .dynamic => 4
  | .decoding => 5
  | .finalConsumed => 6
  | .bad => 7

/-- The number of a stored sub-phase (rule R40). -/
def SPhase.code : SPhase → Nat
  | .lenHdr => 0
  | .copy => 1

/-- The number of a dynamic-header sub-phase (rule R41). -/
def DPhase.code : DPhase → Nat
  | .counts => 0
  | .clens => 1
  | .lens => 2
  | .rep => 3

/-- The number of a substate (rule R44). -/
def Substate.code : Substate → Nat
  | .litLen => 0
  | .lenExtra => 1
  | .distSym => 2
  | .distExtra => 3
  | .copy => 4

/-- The number of a table selection (rule R49). -/
def TSel.code : TSel → Nat
  | .fixed => 0
  | .dynamic => 1

/-- The number of a status (rule R34). -/
def Status.code : Status → BitVec 2
  | .ok => 0
  | .sourceExhausted => 1
  | .targetExhausted => 2
  | .error => 3

/-- The number of an error code (rule R600). -/
def ErrCode.code : ErrCode → BitVec 3
  | .none => 0
  | .badState => 1
  | .oom => 2
  | .badBlock => 3
  | .badTree => 4
  | .badCode => 5
  | .farOffset => 6
  | .inputEnd => 7

/-- RESULT as the host reads it: STATUS in bits 1..0, ERR in bits 6..4, every other bit 0 (rule R63). -/
def resultWord (s : State) : Word :=
  s.status.code.setWidth 32 ||| (s.err.code.setWidth 32 <<< 4)

/-- A span `[p, p + n)` with `p + n > 2^32` (rule R86). -/
def spanWraps (p n : Word) : Bool :=
  decide (2 ^ 32 < p.toNat + n.toNat)

/-- Two spans that share a byte (rule R96); an empty span shares none. The ends are exact numbers, so a span that wraps shares no byte at address 0 (DESIGN CHOICE, log entry 18). -/
def spansOverlap (p n q m : Word) : Bool :=
  decide (0 < n.toNat) && decide (0 < m.toNat) &&
    decide (p.toNat < q.toNat + m.toNat) && decide (q.toNat < p.toNat + n.toNat)

/-- `off`, the bytes that the running INFLATE has written (rules R281, R499). -/
def produced (s : State) : Nat :=
  (s.dstPtr - s.tbegin).toNat

/-- The history bytes available to a back-reference (rule R281). -/
def available (s : State) : Nat :=
  s.wCount.toNat + produced s

/-- The check of FAR_OFFSET (rules R287, R450). -/
def tooFar (s : State) : Bool :=
  decide (available s < s.auxDist.toNat)

/-- A dictionary can no longer be installed (rules R35, R492). -/
def dictionaryTooLate (s : State) : Bool :=
  s.bstate == .uninit || s.consumedAny

end Sys2Proof.Machine
end

