-- ==== Sys2Proof/Machine/Ops.lean ====
section
/-! DEFINITION. The named operations over the machine's storage: the reservoir (rules R200 to R209), target writes (rule R88), the window (rules R280 to R290), the RAM accesses of a dynamic header, and the ends of a command: fold and return (rules R282, R501 to R503), and taking an error as ONE operation with RESET as the one way back (rules R610 to R613). -/

namespace Sys2Proof.Machine

/-! ## Reservoir (40_bit_reservoir.md) -/

/-- `peek(n)` (rule R205). -/
def peek (n : Nat) (s : State) : Nat :=
  s.res.toNat % 2 ^ n

/-- `drop(n)`, `n ≤ bc` (rule R206). -/
def drop (n : Nat) (s : State) : State :=
  { s with res := s.res >>> n, bc := s.bc - BitVec.ofNat 7 n }

/-- `align()` (rule R207). -/
def align (s : State) : State :=
  drop (s.bc.toNat % 8) s

/-- One source byte moves into the core: the span bookkeeping of rule R203. -/
def advanceSource (s : State) : State :=
  { s with srcPtr := s.srcPtr + 1, srcLen := s.srcLen - 1, consumedAny := true }

/-- The next source byte. -/
def sourceByte (s : State) : Byte :=
  Memory.read s.mem s.srcPtr

/-- `take_byte()` where `SRC_LEN` is not 0 (rules R201, R202). -/
def takeByte (s : State) : State :=
  { advanceSource s with
    res := s.res ||| ((sourceByte s).setWidth 64 <<< s.bc.toNat)
    bc := s.bc + 8 }

/-! ## Target (rule R88) -/

/-- `put(v)` where `DST_LEN` is not 0 (rule R88). -/
def storeByte (v : Byte) (s : State) : State :=
  { s with mem := Memory.write s.mem s.dstPtr v, dstPtr := s.dstPtr + 1, dstLen := s.dstLen - 1 }

/-! ## Window (42_sliding_window.md) -/

/-- `W[i]` (rule R55). -/
def windowByte (s : State) (i : BitVec 15) : Byte :=
  Ram.read 0 s.window i.toNat

/-- `W[i] <- v` (rule R55). -/
def setWindow (i : BitVec 15) (v : Byte) (s : State) : State :=
  { s with window := Ram.write Config.wsize 0 i.toNat v s.window }

/-- `srcbyte(d)` (rules R284, R289). -/
def sourceOfMatch (d : Nat) (s : State) : Byte :=
  if d ≤ produced s then Memory.read s.mem (s.dstPtr - BitVec.ofNat 32 d)
  else windowByte s (s.wEnd - BitVec.ofNat 15 (d - produced s))

/-- The loop of `fold()`: `k` target bytes from index `i` of this command's output go to the window (rule R282). -/
def foldBytes : Nat → Nat → State → State
  | 0, _, s => s
  | k + 1, i, s =>
    foldBytes k (i + 1)
      { setWindow s.wEnd (Memory.read s.mem (s.tbegin + BitVec.ofNat 32 i)) s with wEnd := s.wEnd + 1 }

/-- `fold()` (rules R282, R283). -/
def fold (s : State) : State :=
  let n := produced s
  { foldBytes (min n Config.wsize) (n - Config.wsize) s with
    wCount := BitVec.ofNat 16 (min Config.wsize (s.wCount.toNat + n))
    tbegin := s.dstPtr }

/-- The loop of `install`: `k` dictionary bytes from address `a` go to window indices from `i` on (rule R286). -/
def installBytes : Nat → Nat → Word → State → State
  | 0, _, _, s => s
  | k + 1, i, a, s =>
    installBytes k (i + 1) (a + 1) (setWindow (BitVec.ofNat 15 i) (Memory.read s.mem a) s)

/-- `install(DICT_PTR, DICT_LEN)` (rule R286). The rest of `W` stays: DEDUCED, log entry 3. -/
def install (s : State) : State :=
  let k := min s.dictLen.toNat Config.wsize
  { installBytes k 0 (s.dictPtr + s.dictLen - BitVec.ofNat 32 k) s with
    wCount := BitVec.ofNat 16 k
    wEnd := BitVec.ofNat 15 k }

/-! ## Length RAMs and tables -/

/-- `clens[i] <- v` (rule R42). -/
def setClen (i : Nat) (v : BitVec 3) (s : State) : State :=
  { s with clens := Ram.write Config.clensSize 0 i v s.clens }

/-- `lens[idx] <- v; idx <- idx + 1` (rules R43, R345). -/
def pushLen (v : BitVec 4) (s : State) : State :=
  { s with lens := Ram.write Config.lensSize 0 s.idx.toNat v s.lens, idx := s.idx + 1 }

/-- That, `r` times (rules R346 to R348). -/
def pushLens : Nat → BitVec 4 → State → State
  | 0, _, s => s
  | r + 1, v, s => pushLens r v (pushLen v s)

/-- `lens[lo .. lo + n)` as numbers (rule R350). -/
def lensSlice (s : State) (lo n : Nat) : List Nat :=
  (List.range n).map fun i => (Ram.read 0 s.lens (lo + i)).toNat

/-- `clens[0 .. 19)` as numbers (rule R343). -/
def clensVector (s : State) : List Nat :=
  (List.range Config.clensSize).map fun i => (Ram.read 0 s.clens i).toNat

/-- `hlit + hdist`, the length of the vector (rule R344). -/
def vectorLength (s : State) : Nat :=
  s.hlit.toNat + s.hdist.toNat

/-- The contents that a failed build leaves in a table RAM: free (rule R253, log entry 5). -/
def unspecifiedTable (size : Nat) (s : State) : Ram Entry :=
  Ram.ofFn size Entry.zero fun i => Entry.unpack (Config.freeEntryBits s.draws i)

/-- The tables that `decode` reads: `tsel` selects (rules R49, R54). -/
def codebook (s : State) : Codebook where
  ct := Ram.read Entry.zero s.ct
  lt := match s.tsel with
    | .fixed => ltFixed
    | .dynamic => Ram.read Entry.zero s.lt
  dt := match s.tsel with
    | .fixed => dtFixed
    | .dynamic => Ram.read Entry.zero s.dt

/-! ## Errors (60_exceptions.md) -/

/-- The rest of the target span, `k` bytes from address `a`, as an error leaves it: free (rule R611, log entry 4). A target span that wraps, which rule R86 leaves outside the spec, runs round to address 0 here: DESIGN CHOICE, log entry 18. -/
def unspecifiedTarget (draw : Nat) : Nat → Word → Memory → Memory
  | 0, _, m => m
  | k + 1, a, m => unspecifiedTarget draw k (a + 1) (Memory.write m a (Config.freeTarget draw a.toNat))

/-- What rule R611 leaves unspecified after an error, each value free: the span registers of source and target, the reservoir within rules R38 and R39, the window within rule R56, and the rest of the target span. Log entry 4. -/
def unspecifiedAfterError (s : State) : State :=
  let b := min (Config.freeBc s.draws) Config.resWidth.bits
  { s with
    srcPtr := Config.freeSrcPtr s.draws
    srcLen := Config.freeSrcLen s.draws
    dstPtr := Config.freeDstPtr s.draws
    dstLen := Config.freeDstLen s.draws
    bc := BitVec.ofNat 7 b
    res := BitVec.ofNat 64 ((Config.freeRes s.draws).toNat % 2 ^ b)
    window := Ram.ofFn Config.wsize 0 (Config.freeWindow s.draws)
    wEnd := Config.freeWEnd s.draws
    wCount := BitVec.ofNat 16 (min Config.wsize (Config.freeWCount s.draws))
    mem := unspecifiedTarget s.draws s.dstLen.toNat s.dstPtr s.mem
    draws := s.draws + 1 }

/-- `raise Error(c)`: the one way any error is taken (rules R610, R611). The command ends and nothing folds. That the registers rule R611 does not name stay is DEDUCED, log entry 4. -/
def raise (c : ErrCode) (s : State) : State :=
  { unspecifiedAfterError s with bstate := .bad, err := c, status := .error, inflating := none }

/-- The registers after RESET, the one return from an error (rules R67, R491, R613). The RAMs stay: DEDUCED, log entry 3. -/
def resetRegisters (s : State) : State :=
  { s with
    bstate := .needHeader, bfinal := false
    err := .none, status := .ok, consumedAny := false
    res := 0, bc := 0
    sphase := .lenHdr, srem := 0
    dphase := .counts, hlit := 0, hdist := 0, hclen := 0, idx := 0, dsym := 0
    sub := .litLen, litPending := false, auxLen := 0, auxExtra := 0, auxDist := 0
    tsel := .fixed
    wCount := 0, wEnd := 0 }

/-! ## Ends of an INFLATE that is no error (47_stream_driver.md) -/

/-- INFLATE folds and returns a status (rules R282, R495). -/
def endInflate (st : Status) (s : State) : State :=
  { fold s with status := st, inflating := none }

/-- `suspend(DST)` (rules R502, R505). -/
def suspendTarget (s : State) : State :=
  endInflate .targetExhausted s

/-- `suspend(SRC)`: SOURCE_EXHAUSTED, or INPUT_END where `final_input` is set (rules R503, R504, R505). -/
def suspendSource (s : State) : State :=
  if s.inflating = some true then raise .inputEnd s else endInflate .sourceExhausted s

/-- The check of the step loop after a completed step: FINAL_CONSUMED ends the INFLATE with OK (rules R500, R501). -/
def afterStep (s : State) : State :=
  if s.bstate = .finalConsumed then endInflate .ok s else s

/-- `end_block()` (rule R318). -/
def endBlock (s : State) : State :=
  { s with bstate := if s.bfinal then .finalConsumed else .needHeader }

/-- How a copying step goes on: it completes with `k`, or it suspends (rule R505). -/
def Flow.finish (k : State → State) : Flow → Result
  | .done s => .next (k s)
  | .sourceDry s => .next (suspendSource s)
  | .targetFull s => .next (suspendTarget s)

end Sys2Proof.Machine
end

