-- ==== Sys2Proof/Machine/Operands.lean ====
section
/-! DEFINITION. Where operands come from: what the stream holds next (rules R310, R340, R380), fetching a whole element from the reservoir (rules R200, R204, R382), and the register block as the host reads and writes it (rules R61 to R63). -/

namespace Sys2Proof.Machine

/-! ## What a running INFLATE does next -/

/-- The step that the state selects (rules R310, R340, R380): an element of the stream, or a step that reads none. -/
inductive Phase where
  | element (p : Position)
  | fixedSelect
  | ctBuild
  | dynBuild
  | emit
  | copy
  | closed
  deriving DecidableEq, Repr

/-- The dynamic-header step (44_dynamic_header.md). -/
def dynamicPhase (s : State) : Phase :=
  match s.dphase with
  | .counts => .element .dynHdr
  | .clens => if s.idx.toNat < s.hclen.toNat then .element .cll else .ctBuild
  | .lens => if s.idx.toNat < vectorLength s then .element .clsym else .dynBuild
  | .rep => .element (.repExtra s.dsym.toNat)

/-- The decoding step (rule R380). -/
def decodingPhase (s : State) : Phase :=
  match s.sub with
  | .litLen => if s.litPending then .emit else .element .ll
  | .lenExtra => .element (.lenExtra s.auxLen.toNat s.auxExtra.toNat)
  | .distSym => .element .dist
  | .distExtra => .element (.distExtra s.auxDist.toNat s.auxExtra.toNat)
  | .copy => .copy

/-- The step dispatch (rule R310). -/
def phase (s : State) : Phase :=
  match s.bstate with
  | .needHeader => .element .hdr
  | .stored =>
    match s.sphase with
    | .lenHdr => .element .storedHdr
    | .copy => .element .storedData
  | .fixed => .fixedSelect
  | .dynamic => dynamicPhase s
  | .decoding => decodingPhase s
  | .uninit => .closed
  | .finalConsumed => .closed
  | .bad => .closed

/-! ## Fetching an element -/

/-- What gathering bits ends with. -/
inductive Gathered where
  /-- the bits of a code or field are held -/
  | got (d : Decoded) (s : State)
  /-- the source span is empty (rule R202) -/
  | dry (s : State)
  /-- no room for another byte -/
  | full
  deriving DecidableEq, Repr

/-- Pulls bytes until the reservoir settles what stands at a position: `need` for a field and the loop of `decode` for a code (rules R204, R382). At most `k - 1` bytes are pulled. -/
def gather (p : Position) : Nat → State → Gathered
  | 0, _ => .full
  | k + 1, s =>
    match decodeAt (codebook s) p s.res.toNat s.bc.toNat with
    | .short =>
      if s.srcLen = 0 then .dry s
      else if 64 < s.bc.toNat + 8 then .full
      else gather p k (takeByte s)
    | d => .got d s

/-- More pulls than a reservoir of 64 bits has room for, so that the bound never ends a gathering: the largest demand is 32 bits (rule R209). -/
def gatherLimit : Nat := 9

/-- The registers that hold a symbol while its extra bits are outstanding (rules R344, R386, R418). -/
def enterOperand (p : Position) (s : State) : State :=
  match p with
  | .repExtra sym => { s with dsym := BitVec.ofNat 5 sym, dphase := .rep }
  | .lenExtra base extra =>
    { s with auxLen := BitVec.ofNat 9 base, auxExtra := BitVec.ofNat 4 extra, sub := .lenExtra }
  | .distExtra base extra =>
    { s with auxDist := BitVec.ofNat 16 base, auxExtra := BitVec.ofNat 4 extra, sub := .distExtra }
  | _ => s

/-- What a fetch ends with: an instruction whose bits have been dropped, a suspension for input, or a stop. -/
inductive Fetched where
  | instr (i : Instr) (s : State)
  | suspended (s : State)
  | stopped (f : Fault)
  deriving DecidableEq, Repr

/-- The fault of a rejection. -/
def faultOf : DecodeError → Fault
  | .unusedEntry => .unusedEntry
  | .unusedRepeat => .unusedRepeat

/-- The extra bits of a symbol whose code has been dropped (rules R346 to R348, R417, R450). -/
def fetchOperand (p : Position) (s : State) : Fetched :=
  match gather p gatherLimit s with
  | .got (.elem i w) s' => .instr i (drop w s')
  | .got (.reject r) _ => .stopped (faultOf r)
  | .got _ _ => .stopped .unusedEntry
  | .dry s' => .suspended s'
  | .full => .stopped .reservoirFull

/-- The state from which a position's bits are gathered: LEN is aligned to a byte first (rules R207, R316). -/
def beforeFetch (p : Position) (s : State) : State :=
  match p with
  | .storedHdr => align s
  | _ => s

/-- Fetches the element at a position. A suspension between a symbol and its extra bits leaves the symbol in the registers (rule R200). -/
def fetch (p : Position) (s : State) : Fetched :=
  match gather p gatherLimit (beforeFetch p s) with
  | .got (.elem i w) s' => .instr i (drop w s')
  | .got (.operand q w) s' => fetchOperand q (enterOperand q (drop w s'))
  | .got (.reject r) _ => .stopped (faultOf r)
  | .got .short _ => .stopped .unusedEntry
  | .dry s' => .suspended s'
  | .full => .stopped .reservoirFull

/-! ## Register block (rules R61 to R63) -/

/-- The offset of a platform address in the register block (rules R61, R91). -/
def registerOffset (addr : Word) : Word :=
  addr - Config.regBase

/-- What a read of the register at an offset returns (rule R61). -/
def readRegister (off : Word) (s : State) : Word :=
  if off = 0x04#32 then resultWord s
  else if off = 0x08#32 then s.srcPtr
  else if off = 0x0C#32 then s.srcLen
  else if off = 0x10#32 then s.dstPtr
  else if off = 0x14#32 then s.dstLen
  else if off = 0x18#32 then s.dictPtr
  else if off = 0x1C#32 then s.dictLen
  else 0

/-- A write at an offset that no command stands for: DICT_PTR and DICT_LEN take it, RESULT and every other offset ignore it (rule R61). -/
def writePlainRegister (off val : Word) (s : State) : State :=
  if off = 0x18#32 then { s with dictPtr := val }
  else if off = 0x1C#32 then { s with dictLen := val }
  else s

/-- The accesses that rule R61 allows: aligned and 32 bits wide. -/
def registerAccessOk (off : Word) (size : AccessSize) : Bool :=
  decide (off.toNat % 4 = 0) && size == .word

/-- The host issues a register write at a platform address: it joins the end of the queue as a write at its offset from `REG_BASE` (rules R61, R91). -/
def hostWrites (addr val : Word) (s : State) : State :=
  { s with hostQueue := s.hostQueue ++ [.write (registerOffset addr) .word val] }

end Sys2Proof.Machine
end

