-- ==== Sys2Proof/Machine/Commands.lean ====
section
/-! DEFINITION. The host commands: RESET, SET_DICTIONARY, INFLATE, the reserved command, SET_SOURCE and SET_TARGET (rules R62, R490 to R499, R510). -/

namespace Sys2Proof.Machine

/-- RESET, legal in every state (rules R491, R701). -/
def execReset (s : State) : Result :=
  .next (resetRegisters s)

/-- SET_DICTIONARY (rules R492, R497, R601). In every state but BAD a span that wraps, or that overlaps the target, is refused first (rules R86, R96; that the refusal comes before the state check, and not in BAD: DEDUCED, log entry 11). -/
def execSetDictionary (s : State) : Result :=
  if s.bstate = .bad then .next { s with status := .error }
  else if spanWraps s.dictPtr s.dictLen then .refused .dictSpanWraps
  else if spansOverlap s.dictPtr s.dictLen s.dstPtr s.dstLen then .refused .dictTargetOverlap
  else if dictionaryTooLate s then .next (raise .badState s)
  else .next { install s with status := .ok }

/-- INFLATE up to its first step. In every state but BAD (rule R497) spans that wrap or overlap are refused first (rules R86, R96; the order and the exception: DEDUCED, log entry 11). Then come the two other states in which it runs no step (rules R496, R498), and the latch of `tbegin` (rule R499). The steps that follow are those of `step` while `inflating` holds the command (rules R495, R500, log entry 9). -/
def execInflate (finalInput : Bool) (s : State) : Result :=
  if s.bstate = .bad then .next { s with status := .error }
  else if spanWraps s.srcPtr s.srcLen then .refused .sourceSpanWraps
  else if spanWraps s.dstPtr s.dstLen then .refused .targetSpanWraps
  else if spansOverlap s.srcPtr s.srcLen s.dstPtr s.dstLen then .refused .sourceTargetOverlap
  else if s.bstate = .uninit then .next (raise .badState s)
  else if s.bstate = .finalConsumed then .next { s with status := .ok }
  else .next { s with tbegin := s.dstPtr, inflating := some finalInput }

/-- A reserved command has no effect (rules R62, R139; DEDUCED, log entry 6). -/
def execCmdReserved (_opc : BitVec 8) (s : State) : Result :=
  .next s

/-- One half of SET_SOURCE (rules R493, R510). -/
def execSetSource (half : SpanHalf) (value : Word) (s : State) : Result :=
  match half with
  | .ptr => .next { s with srcPtr := value }
  | .len => .next { s with srcLen := value }

/-- One half of SET_TARGET (rules R494, R510). -/
def execSetTarget (half : SpanHalf) (value : Word) (s : State) : Result :=
  match half with
  | .ptr => .next { s with dstPtr := value }
  | .len => .next { s with dstLen := value }

end Sys2Proof.Machine
end

