-- ==== Sys2Proof/Machine/Distance.lean ====
section
/-! DEFINITION. Distance elements: DIST0 to DIST29 and the invalid codes (rules R418 to R450). The fetch has dropped the code and the extra bits. -/

namespace Sys2Proof.Machine

/-- A distance symbol with base `base`, `extra` extra bits and extra value `x`: rule R418, then rule R450 with its FAR_OFFSET check. -/
def distanceElement (base extra x : Nat) (s : State) : Result :=
  let t := { enterOperand (.distExtra base extra) s with auxDist := BitVec.ofNat 16 (base + x) }
  if tooFar t then .next (raise .farOffset t) else .next { t with sub := .copy }

/-- DIST0: distance 1 (rule R419). -/
def execDist0 (s : State) : Result := distanceElement 1 0 0 s

/-- DIST1: distance 2 (rule R420). -/
def execDist1 (s : State) : Result := distanceElement 2 0 0 s

/-- DIST2: distance 3 (rule R421). -/
def execDist2 (s : State) : Result := distanceElement 3 0 0 s

/-- DIST3: distance 4 (rule R422). -/
def execDist3 (s : State) : Result := distanceElement 4 0 0 s

/-- DIST4: distance 5 + extra (rule R423). -/
def execDist4 (extra : BitVec 1) (s : State) : Result := distanceElement 5 1 extra.toNat s

/-- DIST5: distance 7 + extra (rule R424). -/
def execDist5 (extra : BitVec 1) (s : State) : Result := distanceElement 7 1 extra.toNat s

/-- DIST6: distance 9 + extra (rule R425). -/
def execDist6 (extra : BitVec 2) (s : State) : Result := distanceElement 9 2 extra.toNat s

/-- DIST7: distance 13 + extra (rule R426). -/
def execDist7 (extra : BitVec 2) (s : State) : Result := distanceElement 13 2 extra.toNat s

/-- DIST8: distance 17 + extra (rule R427). -/
def execDist8 (extra : BitVec 3) (s : State) : Result := distanceElement 17 3 extra.toNat s

/-- DIST9: distance 25 + extra (rule R428). -/
def execDist9 (extra : BitVec 3) (s : State) : Result := distanceElement 25 3 extra.toNat s

/-- DIST10: distance 33 + extra (rule R429). -/
def execDist10 (extra : BitVec 4) (s : State) : Result := distanceElement 33 4 extra.toNat s

/-- DIST11: distance 49 + extra (rule R430). -/
def execDist11 (extra : BitVec 4) (s : State) : Result := distanceElement 49 4 extra.toNat s

/-- DIST12: distance 65 + extra (rule R431). -/
def execDist12 (extra : BitVec 5) (s : State) : Result := distanceElement 65 5 extra.toNat s

/-- DIST13: distance 97 + extra (rule R432). -/
def execDist13 (extra : BitVec 5) (s : State) : Result := distanceElement 97 5 extra.toNat s

/-- DIST14: distance 129 + extra (rule R433). -/
def execDist14 (extra : BitVec 6) (s : State) : Result := distanceElement 129 6 extra.toNat s

/-- DIST15: distance 193 + extra (rule R434). -/
def execDist15 (extra : BitVec 6) (s : State) : Result := distanceElement 193 6 extra.toNat s

/-- DIST16: distance 257 + extra (rule R435). -/
def execDist16 (extra : BitVec 7) (s : State) : Result := distanceElement 257 7 extra.toNat s

/-- DIST17: distance 385 + extra (rule R436). -/
def execDist17 (extra : BitVec 7) (s : State) : Result := distanceElement 385 7 extra.toNat s

/-- DIST18: distance 513 + extra (rule R437). -/
def execDist18 (extra : BitVec 8) (s : State) : Result := distanceElement 513 8 extra.toNat s

/-- DIST19: distance 769 + extra (rule R438). -/
def execDist19 (extra : BitVec 8) (s : State) : Result := distanceElement 769 8 extra.toNat s

/-- DIST20: distance 1025 + extra (rule R439). -/
def execDist20 (extra : BitVec 9) (s : State) : Result := distanceElement 1025 9 extra.toNat s

/-- DIST21: distance 1537 + extra (rule R440). -/
def execDist21 (extra : BitVec 9) (s : State) : Result := distanceElement 1537 9 extra.toNat s

/-- DIST22: distance 2049 + extra (rule R441). -/
def execDist22 (extra : BitVec 10) (s : State) : Result := distanceElement 2049 10 extra.toNat s

/-- DIST23: distance 3073 + extra (rule R442). -/
def execDist23 (extra : BitVec 10) (s : State) : Result := distanceElement 3073 10 extra.toNat s

/-- DIST24: distance 4097 + extra (rule R443). -/
def execDist24 (extra : BitVec 11) (s : State) : Result := distanceElement 4097 11 extra.toNat s

/-- DIST25: distance 6145 + extra (rule R444). -/
def execDist25 (extra : BitVec 11) (s : State) : Result := distanceElement 6145 11 extra.toNat s

/-- DIST26: distance 8193 + extra (rule R445). -/
def execDist26 (extra : BitVec 12) (s : State) : Result := distanceElement 8193 12 extra.toNat s

/-- DIST27: distance 12289 + extra (rule R446). -/
def execDist27 (extra : BitVec 12) (s : State) : Result := distanceElement 12289 12 extra.toNat s

/-- DIST28: distance 16385 + extra (rule R447). -/
def execDist28 (extra : BitVec 13) (s : State) : Result := distanceElement 16385 13 extra.toNat s

/-- DIST29: distance 24577 + extra (rule R448). -/
def execDist29 (extra : BitVec 13) (s : State) : Result := distanceElement 24577 13 extra.toNat s

/-- DIST30_INVALID raises BAD_CODE (rules R449, R605). -/
def execDist30Invalid (s : State) : Result := .next (raise .badCode s)

/-- DIST31_INVALID raises BAD_CODE (rules R449, R605). -/
def execDist31Invalid (s : State) : Result := .next (raise .badCode s)

end Sys2Proof.Machine
end

