-- ==== Sys2Proof/Machine/DynamicHeader.lean ====
section
/-! DEFINITION. The dynamic header: DYNHDR, CLL, the code-length symbols CL0 to CL15 and the repeats REP16, REP17, REP18 (rules R340 to R349). -/

namespace Sys2Proof.Machine

/-- DYNHDR (rules R340, R341). The counts are exact numbers; the registers take them where they are legal (rule R129; on the error path DEDUCED, log entry 14). -/
def execDynhdr (hlit hdist : BitVec 5) (hclen : BitVec 4) (s : State) : Result :=
  let t := { s with
    hlit := BitVec.ofNat 9 (hlit.toNat + 257)
    hdist := BitVec.ofNat 5 (hdist.toNat + 1)
    hclen := BitVec.ofNat 5 (hclen.toNat + 4) }
  if 286 < hlit.toNat + 257 ∨ 30 < hdist.toNat + 1 then .next (raise .badTree t)
  else .next { t with clens := [], idx := 0, dphase := .clens }

/-- CLL: one code-length code length, placed by ORDER (rules R126, R342). -/
def execCll (len : BitVec 3) (s : State) : Result :=
  .next { setClen (clOrder.getD s.idx.toNat Config.clensSize) len s with idx := s.idx + 1 }

/-- The code-length symbol `n`, 0 to 15 (rule R345). -/
def codeLength (n : BitVec 4) (s : State) : Result :=
  .next (pushLen n s)

/-- CL0: `lens[idx] <- 0` (rule R345). -/
def execCl0 (s : State) : Result := codeLength 0 s

/-- CL1: `lens[idx] <- 1` (rule R345). -/
def execCl1 (s : State) : Result := codeLength 1 s

/-- CL2: `lens[idx] <- 2` (rule R345). -/
def execCl2 (s : State) : Result := codeLength 2 s

/-- CL3: `lens[idx] <- 3` (rule R345). -/
def execCl3 (s : State) : Result := codeLength 3 s

/-- CL4: `lens[idx] <- 4` (rule R345). -/
def execCl4 (s : State) : Result := codeLength 4 s

/-- CL5: `lens[idx] <- 5` (rule R345). -/
def execCl5 (s : State) : Result := codeLength 5 s

/-- CL6: `lens[idx] <- 6` (rule R345). -/
def execCl6 (s : State) : Result := codeLength 6 s

/-- CL7: `lens[idx] <- 7` (rule R345). -/
def execCl7 (s : State) : Result := codeLength 7 s

/-- CL8: `lens[idx] <- 8` (rule R345). -/
def execCl8 (s : State) : Result := codeLength 8 s

/-- CL9: `lens[idx] <- 9` (rule R345). -/
def execCl9 (s : State) : Result := codeLength 9 s

/-- CL10: `lens[idx] <- 10` (rule R345). -/
def execCl10 (s : State) : Result := codeLength 10 s

/-- CL11: `lens[idx] <- 11` (rule R345). -/
def execCl11 (s : State) : Result := codeLength 11 s

/-- CL12: `lens[idx] <- 12` (rule R345). -/
def execCl12 (s : State) : Result := codeLength 12 s

/-- CL13: `lens[idx] <- 13` (rule R345). -/
def execCl13 (s : State) : Result := codeLength 13 s

/-- CL14: `lens[idx] <- 14` (rule R345). -/
def execCl14 (s : State) : Result := codeLength 14 s

/-- CL15: `lens[idx] <- 15` (rule R345). -/
def execCl15 (s : State) : Result := codeLength 15 s

/-- `r` copies of `v`, unless they pass the end of the vector (rules R346 to R349). -/
def repeatLengths (r : Nat) (v : BitVec 4) (s : State) : Result :=
  if vectorLength s < s.idx.toNat + r then .next (raise .badTree s)
  else .next { pushLens r v s with dphase := .lens }

/-- REP16: the previous length 3 + extra times; there must be one (rules R344, R346). -/
def execRep16 (extra : BitVec 2) (s : State) : Result :=
  let t := enterOperand (.repExtra 16) s
  if s.idx = 0 then .next (raise .badTree t)
  else repeatLengths (3 + extra.toNat) (Ram.read 0 s.lens (s.idx.toNat - 1)) t

/-- REP17: 3 + extra zero lengths (rules R344, R347). -/
def execRep17 (extra : BitVec 3) (s : State) : Result :=
  repeatLengths (3 + extra.toNat) 0 (enterOperand (.repExtra 17) s)

/-- REP18: 11 + extra zero lengths (rules R344, R348). -/
def execRep18 (extra : BitVec 7) (s : State) : Result :=
  repeatLengths (11 + extra.toNat) 0 (enterOperand (.repExtra 18) s)

end Sys2Proof.Machine
end

