-- ==== Sys2Proof/Machine/Header.lean ====
section
/-! DEFINITION. Block headers: BLOCK_STORED, BLOCK_FIXED, BLOCK_DYNAMIC, BLOCK_RESERVED (rules R311 to R315). The three header bits have been dropped by the fetch. -/

namespace Sys2Proof.Machine

/-- `final <- h[0]`, on every header (rules R32, R311). -/
def setFinal (final : Bool) (s : State) : State :=
  { s with bfinal := final }

/-- BLOCK_STORED (rules R311, R312). -/
def execBlockStored (final : Bool) (s : State) : Result :=
  .next { setFinal final s with sphase := .lenHdr, bstate := .stored }

/-- BLOCK_FIXED (rules R311, R313). -/
def execBlockFixed (final : Bool) (s : State) : Result :=
  .next { setFinal final s with bstate := .fixed }

/-- BLOCK_DYNAMIC (rules R311, R314). -/
def execBlockDynamic (final : Bool) (s : State) : Result :=
  .next { setFinal final s with dphase := .counts, bstate := .dynamic }

/-- BLOCK_RESERVED raises BAD_BLOCK after the header is consumed (rules R311, R315). -/
def execBlockReserved (final : Bool) (s : State) : Result :=
  .next (raise .badBlock (setFinal final s))

end Sys2Proof.Machine
end

