-- ==== Sys2Proof/Machine/LiteralLength.lean ====
section
/-! DEFINITION. Literal/length elements: LIT, EOB, LEN257 to LEN285 and the two invalid symbols of the fixed code (rules R383 to R417). The fetch has dropped the code and the extra bits. -/

namespace Sys2Proof.Machine

/-- LIT: the literal is held until there is room for it (rules R45, R384). -/
def execLit (byte : Byte) (s : State) : Result :=
  .next { s with auxLen := byte.setWidth 9, litPending := true }

/-- EOB: the block ends, and with it the stream where `final` is 1 (rules R318, R385, R500). -/
def execEob (s : State) : Result :=
  .next (afterStep (endBlock s))

/-- A length symbol with base `base`, `extra` extra bits and extra value `x`: rule R386, then rule R417. -/
def lengthElement (base extra x : Nat) (s : State) : Result :=
  .next { enterOperand (.lenExtra base extra) s with auxLen := BitVec.ofNat 9 (base + x), sub := .distSym }

/-- LEN257: length 3 (rule R387). -/
def execLen257 (s : State) : Result := lengthElement 3 0 0 s

/-- LEN258: length 4 (rule R388). -/
def execLen258 (s : State) : Result := lengthElement 4 0 0 s

/-- LEN259: length 5 (rule R389). -/
def execLen259 (s : State) : Result := lengthElement 5 0 0 s

/-- LEN260: length 6 (rule R390). -/
def execLen260 (s : State) : Result := lengthElement 6 0 0 s

/-- LEN261: length 7 (rule R391). -/
def execLen261 (s : State) : Result := lengthElement 7 0 0 s

/-- LEN262: length 8 (rule R392). -/
def execLen262 (s : State) : Result := lengthElement 8 0 0 s

/-- LEN263: length 9 (rule R393). -/
def execLen263 (s : State) : Result := lengthElement 9 0 0 s

/-- LEN264: length 10 (rule R394). -/
def execLen264 (s : State) : Result := lengthElement 10 0 0 s

/-- LEN265: length 11 + extra (rule R395). -/
def execLen265 (extra : BitVec 1) (s : State) : Result := lengthElement 11 1 extra.toNat s

/-- LEN266: length 13 + extra (rule R396). -/
def execLen266 (extra : BitVec 1) (s : State) : Result := lengthElement 13 1 extra.toNat s

/-- LEN267: length 15 + extra (rule R397). -/
def execLen267 (extra : BitVec 1) (s : State) : Result := lengthElement 15 1 extra.toNat s

/-- LEN268: length 17 + extra (rule R398). -/
def execLen268 (extra : BitVec 1) (s : State) : Result := lengthElement 17 1 extra.toNat s

/-- LEN269: length 19 + extra (rule R399). -/
def execLen269 (extra : BitVec 2) (s : State) : Result := lengthElement 19 2 extra.toNat s

/-- LEN270: length 23 + extra (rule R400). -/
def execLen270 (extra : BitVec 2) (s : State) : Result := lengthElement 23 2 extra.toNat s

/-- LEN271: length 27 + extra (rule R401). -/
def execLen271 (extra : BitVec 2) (s : State) : Result := lengthElement 27 2 extra.toNat s

/-- LEN272: length 31 + extra (rule R402). -/
def execLen272 (extra : BitVec 2) (s : State) : Result := lengthElement 31 2 extra.toNat s

/-- LEN273: length 35 + extra (rule R403). -/
def execLen273 (extra : BitVec 3) (s : State) : Result := lengthElement 35 3 extra.toNat s

/-- LEN274: length 43 + extra (rule R404). -/
def execLen274 (extra : BitVec 3) (s : State) : Result := lengthElement 43 3 extra.toNat s

/-- LEN275: length 51 + extra (rule R405). -/
def execLen275 (extra : BitVec 3) (s : State) : Result := lengthElement 51 3 extra.toNat s

/-- LEN276: length 59 + extra (rule R406). -/
def execLen276 (extra : BitVec 3) (s : State) : Result := lengthElement 59 3 extra.toNat s

/-- LEN277: length 67 + extra (rule R407). -/
def execLen277 (extra : BitVec 4) (s : State) : Result := lengthElement 67 4 extra.toNat s

/-- LEN278: length 83 + extra (rule R408). -/
def execLen278 (extra : BitVec 4) (s : State) : Result := lengthElement 83 4 extra.toNat s

/-- LEN279: length 99 + extra (rule R409). -/
def execLen279 (extra : BitVec 4) (s : State) : Result := lengthElement 99 4 extra.toNat s

/-- LEN280: length 115 + extra (rule R410). -/
def execLen280 (extra : BitVec 4) (s : State) : Result := lengthElement 115 4 extra.toNat s

/-- LEN281: length 131 + extra (rule R411). -/
def execLen281 (extra : BitVec 5) (s : State) : Result := lengthElement 131 5 extra.toNat s

/-- LEN282: length 163 + extra (rule R412). -/
def execLen282 (extra : BitVec 5) (s : State) : Result := lengthElement 163 5 extra.toNat s

/-- LEN283: length 195 + extra (rule R413). -/
def execLen283 (extra : BitVec 5) (s : State) : Result := lengthElement 195 5 extra.toNat s

/-- LEN284: length 227 + extra (rule R414). -/
def execLen284 (extra : BitVec 5) (s : State) : Result := lengthElement 227 5 extra.toNat s

/-- LEN285: length 258 (rule R415). -/
def execLen285 (s : State) : Result := lengthElement 258 0 0 s

/-- LL286_INVALID raises BAD_CODE (rules R416, R605). -/
def execLL286Invalid (s : State) : Result := .next (raise .badCode s)

/-- LL287_INVALID raises BAD_CODE (rules R416, R605). -/
def execLL287Invalid (s : State) : Result := .next (raise .badCode s)

end Sys2Proof.Machine
end

