-- ==== Sys2Proof/Machine/Stored.lean ====
section
/-! DEFINITION. Stored blocks: STOREDHDR and STORED_DATA (rules R316 to R321). -/

namespace Sys2Proof.Machine

/-- STOREDHDR: NLEN must be the complement of LEN (rule R316). The fetch has aligned the stream and dropped the 32 bits. -/
def execStoredhdr (len nlen : BitVec 16) (s : State) : Result :=
  if nlen ≠ len ^^^ 0xFFFF#16 then .next (raise .badBlock s)
  else .next { s with srem := len, sphase := .copy }

/-- One stored byte from the reservoir, the safeguard branch of rule R317 (rule R321). -/
def storeHeldByte (s : State) : State :=
  let t := storeByte (BitVec.ofNat 8 (peek 8 s)) (drop 8 s)
  { t with srem := t.srem - 1 }

/-- One stored byte straight from the source (rule R317). -/
def storeSourceByte (s : State) : State :=
  let t := storeByte (sourceByte s) (advanceSource s)
  { t with srem := t.srem - 1 }

/-- The loop of STORED-COPY; room in the target is checked first (rules R317, R609). -/
def copyStored : Nat → State → Flow
  | 0, s => .done s
  | k + 1, s =>
    if s.dstLen = 0 then .targetFull s
    else if 8 ≤ s.bc.toNat then copyStored k (storeHeldByte s)
    else if s.srcLen = 0 then .sourceDry s
    else copyStored k (storeSourceByte s)

/-- STORED_DATA: copies `srem` bytes and ends the block (rules R317, R318, R320, R500). -/
def execStoredData (s : State) : Result :=
  (copyStored s.srem.toNat s).finish fun t => afterStep (endBlock t)

end Sys2Proof.Machine
end

