-- ==== Sys2Proof/Machine/Dispatch.lean ====
section
/-! DEFINITION. Which meaning each instruction has: one arm for each row of spec/opcode_table.json. -/

namespace Sys2Proof.Machine

def exec (i : Instr) (s : State) : Host.Outcome State Fault Refusal :=
  match i with
  | .blockStored f => Sys2Proof.Machine.execBlockStored f s
  | .blockFixed f => Sys2Proof.Machine.execBlockFixed f s
  | .blockDynamic f => Sys2Proof.Machine.execBlockDynamic f s
  | .blockReserved f => Sys2Proof.Machine.execBlockReserved f s
  | .storedhdr len nlen => Sys2Proof.Machine.execStoredhdr len nlen s
  | .storedData => Sys2Proof.Machine.execStoredData s
  | .dynhdr hlit hdist hclen => Sys2Proof.Machine.execDynhdr hlit hdist hclen s
  | .cll len => Sys2Proof.Machine.execCll len s
  | .cl0 => Sys2Proof.Machine.execCl0 s
  | .cl1 => Sys2Proof.Machine.execCl1 s
  | .cl2 => Sys2Proof.Machine.execCl2 s
  | .cl3 => Sys2Proof.Machine.execCl3 s
  | .cl4 => Sys2Proof.Machine.execCl4 s
  | .cl5 => Sys2Proof.Machine.execCl5 s
  | .cl6 => Sys2Proof.Machine.execCl6 s
  | .cl7 => Sys2Proof.Machine.execCl7 s
  | .cl8 => Sys2Proof.Machine.execCl8 s
  | .cl9 => Sys2Proof.Machine.execCl9 s
  | .cl10 => Sys2Proof.Machine.execCl10 s
  | .cl11 => Sys2Proof.Machine.execCl11 s
  | .cl12 => Sys2Proof.Machine.execCl12 s
  | .cl13 => Sys2Proof.Machine.execCl13 s
  | .cl14 => Sys2Proof.Machine.execCl14 s
  | .cl15 => Sys2Proof.Machine.execCl15 s
  | .rep16 extra => Sys2Proof.Machine.execRep16 extra s
  | .rep17 extra => Sys2Proof.Machine.execRep17 extra s
  | .rep18 extra => Sys2Proof.Machine.execRep18 extra s
  | .lit byte => Sys2Proof.Machine.execLit byte s
  | .eob => Sys2Proof.Machine.execEob s
  | .len257 => Sys2Proof.Machine.execLen257 s
  | .len258 => Sys2Proof.Machine.execLen258 s
  | .len259 => Sys2Proof.Machine.execLen259 s
  | .len260 => Sys2Proof.Machine.execLen260 s
  | .len261 => Sys2Proof.Machine.execLen261 s
  | .len262 => Sys2Proof.Machine.execLen262 s
  | .len263 => Sys2Proof.Machine.execLen263 s
  | .len264 => Sys2Proof.Machine.execLen264 s
  | .len265 extra => Sys2Proof.Machine.execLen265 extra s
  | .len266 extra => Sys2Proof.Machine.execLen266 extra s
  | .len267 extra => Sys2Proof.Machine.execLen267 extra s
  | .len268 extra => Sys2Proof.Machine.execLen268 extra s
  | .len269 extra => Sys2Proof.Machine.execLen269 extra s
  | .len270 extra => Sys2Proof.Machine.execLen270 extra s
  | .len271 extra => Sys2Proof.Machine.execLen271 extra s
  | .len272 extra => Sys2Proof.Machine.execLen272 extra s
  | .len273 extra => Sys2Proof.Machine.execLen273 extra s
  | .len274 extra => Sys2Proof.Machine.execLen274 extra s
  | .len275 extra => Sys2Proof.Machine.execLen275 extra s
  | .len276 extra => Sys2Proof.Machine.execLen276 extra s
  | .len277 extra => Sys2Proof.Machine.execLen277 extra s
  | .len278 extra => Sys2Proof.Machine.execLen278 extra s
  | .len279 extra => Sys2Proof.Machine.execLen279 extra s
  | .len280 extra => Sys2Proof.Machine.execLen280 extra s
  | .len281 extra => Sys2Proof.Machine.execLen281 extra s
  | .len282 extra => Sys2Proof.Machine.execLen282 extra s
  | .len283 extra => Sys2Proof.Machine.execLen283 extra s
  | .len284 extra => Sys2Proof.Machine.execLen284 extra s
  | .len285 => Sys2Proof.Machine.execLen285 s
  | .ll286Invalid => Sys2Proof.Machine.execLL286Invalid s
  | .ll287Invalid => Sys2Proof.Machine.execLL287Invalid s
  | .dist0 => Sys2Proof.Machine.execDist0 s
  | .dist1 => Sys2Proof.Machine.execDist1 s
  | .dist2 => Sys2Proof.Machine.execDist2 s
  | .dist3 => Sys2Proof.Machine.execDist3 s
  | .dist4 extra => Sys2Proof.Machine.execDist4 extra s
  | .dist5 extra => Sys2Proof.Machine.execDist5 extra s
  | .dist6 extra => Sys2Proof.Machine.execDist6 extra s
  | .dist7 extra => Sys2Proof.Machine.execDist7 extra s
  | .dist8 extra => Sys2Proof.Machine.execDist8 extra s
  | .dist9 extra => Sys2Proof.Machine.execDist9 extra s
  | .dist10 extra => Sys2Proof.Machine.execDist10 extra s
  | .dist11 extra => Sys2Proof.Machine.execDist11 extra s
  | .dist12 extra => Sys2Proof.Machine.execDist12 extra s
  | .dist13 extra => Sys2Proof.Machine.execDist13 extra s
  | .dist14 extra => Sys2Proof.Machine.execDist14 extra s
  | .dist15 extra => Sys2Proof.Machine.execDist15 extra s
  | .dist16 extra => Sys2Proof.Machine.execDist16 extra s
  | .dist17 extra => Sys2Proof.Machine.execDist17 extra s
  | .dist18 extra => Sys2Proof.Machine.execDist18 extra s
  | .dist19 extra => Sys2Proof.Machine.execDist19 extra s
  | .dist20 extra => Sys2Proof.Machine.execDist20 extra s
  | .dist21 extra => Sys2Proof.Machine.execDist21 extra s
  | .dist22 extra => Sys2Proof.Machine.execDist22 extra s
  | .dist23 extra => Sys2Proof.Machine.execDist23 extra s
  | .dist24 extra => Sys2Proof.Machine.execDist24 extra s
  | .dist25 extra => Sys2Proof.Machine.execDist25 extra s
  | .dist26 extra => Sys2Proof.Machine.execDist26 extra s
  | .dist27 extra => Sys2Proof.Machine.execDist27 extra s
  | .dist28 extra => Sys2Proof.Machine.execDist28 extra s
  | .dist29 extra => Sys2Proof.Machine.execDist29 extra s
  | .dist30Invalid => Sys2Proof.Machine.execDist30Invalid s
  | .dist31Invalid => Sys2Proof.Machine.execDist31Invalid s
  | .reset => Sys2Proof.Machine.execReset s
  | .setDictionary => Sys2Proof.Machine.execSetDictionary s
  | .inflate finalInput => Sys2Proof.Machine.execInflate finalInput s
  | .cmdReserved opc => Sys2Proof.Machine.execCmdReserved opc s
  | .setSource half value => Sys2Proof.Machine.execSetSource half value s
  | .setTarget half value => Sys2Proof.Machine.execSetTarget half value s

end Sys2Proof.Machine
end

