-- ==== Sys2Proof/Machine/FastPath.lean ====
section
/-! DEFINITION. The moves that the optional fast path adds (46_fast_path.md): its guard, its refill and its pushback. The steps of the machine are the slow path's (92_eei_decisions.md D31, log entry 8), and rule R474 says why the two agree: a pushback gives back every byte a refill took too many. -/

namespace Sys2Proof.Machine

/-- The entry guard (rules R6, R471). -/
def fastGuard (s : State) : Bool :=
  Config.fastPath && decide (Config.fpSrc Config.resWidth ≤ s.srcLen.toNat) &&
    decide (Config.fpDst Config.resWidth ≤ s.dstLen.toNat) &&
    s.bstate == .decoding && s.sub == .litLen && !s.litPending

/-- A refill of `k` bytes, the effect of one wide load (rules R472, R476). -/
def refill : Nat → State → State
  | 0, s => s
  | k + 1, s => refill k (takeByte s)

/-- The pushback at the exit: whole bytes go back to the source span (rule R474). -/
def pushback (s : State) : State :=
  { s with
    srcPtr := s.srcPtr - BitVec.ofNat 32 (s.bc.toNat / 8)
    srcLen := s.srcLen + BitVec.ofNat 32 (s.bc.toNat / 8)
    bc := BitVec.ofNat 7 (s.bc.toNat % 8)
    res := BitVec.ofNat 64 (s.res.toNat % 2 ^ (s.bc.toNat % 8)) }

end Sys2Proof.Machine
end

