-- ==== Sys2Proof/Machine/Silent.lean ====
section
/-! DEFINITION. The steps that read no stream element: FIXED-SELECT (rule R319), DYN-CTBUILD (rule R343), DYN-BUILD (rule R350), DEC-EMIT (rule R381) and DEC-COPY (rule R451). -/

namespace Sys2Proof.Machine

/-- A block body begins: no symbol is pending (rules R319, R350). -/
def enterBody (t : TSel) (s : State) : State :=
  { s with tsel := t, sub := .litLen, litPending := false, bstate := .decoding }

/-- FIXED-SELECT (rule R319). -/
def fixedSelect (s : State) : Result :=
  .next (enterBody .fixed s)

/-- DYN-CTBUILD (rules R253, R343). -/
def ctBuild (s : State) : Result :=
  match build .codes (clensVector s) s.ct with
  | none => .next (raise .badTree { s with ct := unspecifiedTable Config.ccap s })
  | some t => .next { s with ct := t, idx := 0, dphase := .lens }

/-- The distance half of DYN-BUILD (rules R253, R350). -/
def dynBuildDist (s : State) : Result :=
  match build .dists (lensSlice s s.hlit.toNat s.hdist.toNat) s.dt with
  | none => .next (raise .badTree { s with dt := unspecifiedTable Config.dcap s })
  | some t => .next (enterBody .dynamic { s with dt := t })

/-- DYN-BUILD (rules R253, R350, R351). -/
def dynBuild (s : State) : Result :=
  if Ram.read 0 s.lens 256 = 0 then .next (raise .badTree s)
  else
    match build .lens (lensSlice s 0 s.hlit.toNat) s.lt with
    | none => .next (raise .badTree { s with lt := unspecifiedTable Config.lcap s })
    | some t => dynBuildDist { s with lt := t }

/-- DEC-EMIT: writes the held literal (rule R381). -/
def emitLiteral (s : State) : Result :=
  if s.dstLen = 0 then .next (suspendTarget s)
  else .next { storeByte (s.auxLen.setWidth 8) s with litPending := false }

/-- One byte of a match (rules R284, R285, R451). -/
def copyMatchByte (s : State) : State :=
  let t := storeByte (sourceOfMatch s.auxDist.toNat s) s
  { t with auxLen := t.auxLen - 1 }

/-- The loop of DEC-COPY (rule R451). -/
def copyMatch : Nat → State → Flow
  | 0, s => .done s
  | k + 1, s => if s.dstLen = 0 then .targetFull s else copyMatch k (copyMatchByte s)

/-- DEC-COPY: copies `aux_len` bytes from `aux_dist` back (rule R451). -/
def copyStep (s : State) : Result :=
  (copyMatch s.auxLen.toNat s).finish fun t => { t with sub := .litLen }

/-- What a running INFLATE does in a block state with no step (rules R495 to R498); `step` ends every INFLATE before it could come here. DESIGN CHOICE, log entry 15. -/
def closedStep (s : State) : Result :=
  match s.bstate with
  | .uninit => .next (raise .badState s)
  | .bad => .next { s with status := .error, inflating := none }
  | _ => .next (afterStep s)

end Sys2Proof.Machine
end

