-- ==== Sys2Proof/Machine/Sequencer.lean ====
section
/-! DEFINITION. What a step is made of: one step of a running INFLATE (rules R200, R310, R500), one action of the host (rules R30, R61, R62, R93), and the placing of an instruction where the next step reads it (log entry 12). -/

namespace Sys2Proof.Machine

/-- One step of the running INFLATE (rules R310, R495, R500): the element at the stream position is fetched and executed, or a step that reads none runs. -/
def streamStep (s : State) : Result :=
  match phase s with
  | .element p =>
    match fetch p s with
    | .instr i t => exec i t
    | .suspended t => .next (suspendSource t)
    | .stopped f => .fault f
  | .fixedSelect => fixedSelect s
  | .ctBuild => ctBuild s
  | .dynBuild => dynBuild s
  | .emit => emitLiteral s
  | .copy => copyStep s
  | .closed => closedStep s

/-- One action of the host, taken from the queue already (rules R61, R62, R82, R93). -/
def hostStep (a : HostAction) (s : State) : Result :=
  match a with
  | .write off size val =>
    if registerAccessOk off size then
      match decodeHostWrite off val with
      | some i => exec i s
      | none => .next (writePlainRegister off val s)
    else .refused .registerAccess
  | .read off size =>
    if registerAccessOk off size then .next { s with readback := readRegister off s }
    else .refused .registerAccess
  | .poke addr v => .next { s with mem := Memory.write s.mem addr v }

/-! ## Placing an instruction where the next step reads it (log entry 12) -/

/-- The state in which a running INFLATE expects what stands at a position. -/
def atPosition (p : Position) (s : State) : State :=
  let t := { s with inflating := some false, res := 0, bc := 0, tsel := .fixed, litPending := false }
  match p with
  | .hdr => { t with bstate := .needHeader }
  | .storedHdr => { t with bstate := .stored, sphase := .lenHdr }
  | .storedData => { t with bstate := .stored, sphase := .copy }
  | .dynHdr => { t with bstate := .dynamic, dphase := .counts }
  | .cll => { t with bstate := .dynamic, dphase := .clens, idx := 0, hclen := 4 }
  | .clsym => { t with bstate := .dynamic, dphase := .lens, idx := 0, hlit := 257, hdist := 1, ct := tableCt }
  | .ll => { t with bstate := .decoding, sub := .litLen }
  | .dist => { t with bstate := .decoding, sub := .distSym }
  | .repExtra sym => { enterOperand (.repExtra sym) t with bstate := .dynamic, idx := 0, hlit := 257, hdist := 1 }
  | .lenExtra b x => { enterOperand (.lenExtra b x) t with bstate := .decoding }
  | .distExtra b x => { enterOperand (.distExtra b x) t with bstate := .decoding }

/-- The bytes `bs` in host memory from address `a` on. -/
def pokeBytes : List Byte → Word → Memory → Memory
  | [], _, m => m
  | b :: bs, a, m => pokeBytes bs (a + 1) (Memory.write m a b)

/-- The source span holds these bits, and no more than the bytes they take. -/
def withSourceBits (bs : List Bool) (s : State) : State :=
  let bytes := bytesOfBits bs.length bs
  { s with mem := pokeBytes bytes s.srcPtr s.mem, srcLen := BitVec.ofNat 32 bytes.length }

/-- The state in which the next step fetches and runs the instruction of a wire form: its bits stand in the source span, or its write at the head of the host's queue. -/
def withWire (wire : Wire) (s : State) : State :=
  match wire with
  | .bits p bs => withSourceBits bs (atPosition p s)
  | .access off val => { s with inflating := none, hostQueue := .write off .word val :: s.hostQueue }

end Sys2Proof.Machine
end

