-- ==== Sys2Proof/Machine/Step.lean ====
section
/-! DEFINITION. One step of the machine. While an INFLATE runs, one step of its step loop (rules R200, R310, R500); between commands, the next thing the host does (rules R30, R93), or nothing. -/

namespace Sys2Proof.Machine

/-- One step. The host acts only while no INFLATE runs (rules R30, R93), and a core with nothing to do stays as it is. -/
def step (s : State) : Host.Outcome State Fault Refusal :=
  match s.inflating with
  | some _ => streamStep s
  | none =>
    match s.hostQueue with
    | [] => .next s
    | a :: rest => hostStep a { s with hostQueue := rest }

/-- The state in which the next step fetches and runs the instruction of a word of the opcode table. -/
def State.withFetchWord (s : State) (nbits w : Nat) : State :=
  match tableWire nbits w with
  | some wire => withWire wire s
  | none => s

end Sys2Proof.Machine
end

