-- ==== Sys2Proof/Safety.lean ====
section
/-! DEFINITION. What a safe run is: the invariants of the storage (rules R38, R39, R56, R80) and of the whole decoder (rules R41, R46 to R48, R53, R209, R287), and runs of several steps. -/

namespace Sys2Proof.Machine

/-! ## Storage -/

/-- Every memory and RAM is in canonical form, the reservoir is clear above its fill (rules R38, R39), and the window count is in range (rule R56). -/
structure StorageInv (s : State) : Prop where
  mem    : Memory.wf s.mem = true
  clens  : Ram.wf Config.clensSize 0 s.clens = true
  lens   : Ram.wf Config.lensSize 0 s.lens = true
  lt     : Ram.wf Config.lcap Entry.zero s.lt = true
  dt     : Ram.wf Config.dcap Entry.zero s.dt = true
  ct     : Ram.wf Config.ccap Entry.zero s.ct = true
  window : Ram.wf Config.wsize 0 s.window = true
  bc     : s.bc.toNat ≤ 64
  res    : s.res.toNat < 2 ^ s.bc.toNat
  wCount : s.wCount.toNat ≤ Config.wsize

/-! ## Tables (rules R53, R246, R353) -/

/-- An entry that stands for a code-length symbol, or fills an unused slot. -/
def codeLengthEntry (e : Entry) : Prop :=
  1 ≤ e.length.toNat ∧ e.length.toNat ≤ 15 ∧ e.info.toNat ≤ 18

/-- An entry that stands for a literal/length symbol, or fills an unused slot. -/
def litLenEntry (e : Entry) : Prop :=
  1 ≤ e.length.toNat ∧ e.length.toNat ≤ 15 ∧
    (e.tag = tagLiteral ∨ e.tag = tagEndOfBlock ∨ e.tag = tagInvalid ∨
      (lengthSymbol e.info.toNat e.tag.toNat).isSome = true)

/-- An entry that stands for a distance symbol, or fills an unused slot. -/
def distEntry (e : Entry) : Prop :=
  1 ≤ e.length.toNat ∧ e.length.toNat ≤ 15 ∧
    (e.tag = tagInvalid ∨ (distanceSymbol e.info.toNat e.tag.toNat).isSome = true)

/-- Whatever the reservoir holds, `decode` selects an entry of this kind. -/
def selects (ok : Entry → Prop) (T : Ram Entry) (root : Nat) : Prop :=
  ∀ v : Nat, ok (lookup (Ram.read Entry.zero T) root v)

/-! ## The decoder -/

/-- The block states in which an INFLATE runs steps (rules R310, R495). -/
def BState.runs : BState → Bool
  | .needHeader | .stored | .fixed | .dynamic | .decoding => true
  | .uninit | .finalConsumed | .bad => false

/-- The history that a held match may reach back into (rules R281, R287): what the running INFLATE has written counts only while it runs. -/
def history (s : State) : Nat :=
  if s.inflating = none then s.wCount.toNat else available s

/-- What a dynamic header has established (rules R41, R341, R343, R353). -/
structure DynamicInv (s : State) : Prop where
  hlit   : s.dphase ≠ .counts → 257 ≤ s.hlit.toNat ∧ s.hlit.toNat ≤ 286
  hdist  : s.dphase ≠ .counts → 1 ≤ s.hdist.toNat ∧ s.hdist.toNat ≤ 30
  hclen  : s.dphase ≠ .counts → 4 ≤ s.hclen.toNat ∧ s.hclen.toNat ≤ 19
  clens  : s.dphase = .clens → s.idx.toNat ≤ s.hclen.toNat
  lens   : s.dphase = .lens ∨ s.dphase = .rep → s.idx.toNat ≤ vectorLength s
  ct     : s.dphase = .lens ∨ s.dphase = .rep → selects codeLengthEntry s.ct Config.croot
  rep    : s.dphase = .rep → 16 ≤ s.dsym.toNat ∧ s.dsym.toNat ≤ 18

/-- What a block body has established (rules R45 to R48, R287, R452, R453). -/
structure DecodingInv (s : State) : Prop where
  lt        : s.tsel = .dynamic → selects litLenEntry s.lt Config.lroot
  dt        : s.tsel = .dynamic → selects distEntry s.dt Config.droot
  literal   : s.sub = .litLen → s.litPending = true → s.auxLen.toNat ≤ 255
  lenExtra  : s.sub = .lenExtra → (lengthSymbol s.auxLen.toNat s.auxExtra.toNat).isSome = true
  length    : s.sub = .distSym ∨ s.sub = .distExtra → 3 ≤ s.auxLen.toNat ∧ s.auxLen.toNat ≤ 258
  distExtra : s.sub = .distExtra → (distanceSymbol s.auxDist.toNat s.auxExtra.toNat).isSome = true
  copyLen   : s.sub = .copy → 1 ≤ s.auxLen.toNat ∧ s.auxLen.toNat ≤ 258
  copyDist  : s.sub = .copy → 1 ≤ s.auxDist.toNat ∧ s.auxDist.toNat ≤ Config.wsize ∧ s.auxDist.toNat ≤ history s

/-- The invariant of the machine. In a state that meets it no step faults. -/
structure Inv (s : State) : Prop where
  storage  : StorageInv s
  /-- the slow path holds at most 32 bits (rules R38, R209) -/
  slow     : s.bstate ≠ .bad → s.bc.toNat ≤ 32
  /-- an INFLATE runs only where it has steps (rules R496 to R498) -/
  running  : s.inflating ≠ none → s.bstate.runs = true
  /-- the target of a running INFLATE does not wrap onto its start (rules R86, R499) -/
  room     : s.inflating ≠ none → produced s + s.dstLen.toNat < 2 ^ 32
  /-- nothing is decoded before a byte is taken (rule R35) -/
  fresh    : s.consumedAny = false → s.bstate = .uninit ∨ s.bstate = .bad ∨ (s.bstate = .needHeader ∧ s.bc = 0)
  dynamic  : s.bstate = .dynamic → DynamicInv s
  decoding : s.bstate = .decoding → DecodingInv s

/-! ## Runs -/

/-- The state after exactly `n` steps, if each of them answers a next state. -/
def runFor : Nat → State → Option State
  | 0, s => some s
  | n + 1, s =>
    match step s with
    | .next t => runFor n t
    | .fault _ => none
    | .refused _ => none

/-- The stream work left to an INFLATE, in bits to drop and bytes to write (rule R509). -/
def workLeft (s : State) : Nat :=
  s.bc.toNat + 8 * s.srcLen.toNat + s.dstLen.toNat

/-- An address of the target span (rule R81): the `dstLen` bytes from `dstPtr` on, round to address 0 where the span wraps (log entry 18). -/
def inTarget (s : State) (a : Word) : Prop :=
  (a - s.dstPtr).toNat < s.dstLen.toNat

end Sys2Proof.Machine
end

