-- ==== Sys2Proof/Certificates/Slice0/Obligations.lean ====
section
/-! DEFINITION. The statements for the provers: encodings, the table builder, the reservoir, the steps, the result and the frame of every instruction, errors, and the invariants. -/

open Sys2Proof Sys2Proof.Machine

/-! ## Encoding (30_encoding.md) -/

/-- Decoding gives back every well-formed instruction from its encoding under the codes of the opcode table, whatever bits follow in the stream: the fixed codes of rules R131 and R132, and for the code-length code the model's own choice (log entry 12). -/
def Obligations.DecodeInvertsEncode : Prop :=
  ∀ i : Instr, i.wellFormed = true →
    match encode tableCodes i with
    | .bits p bs => ∀ rest : List Bool,
        decode tableBook p (bitsVal (bs ++ rest)) (bs.length + rest.length) = .elem i bs.length
    | .access off val => decodeHostWrite off val = some i

/-- Words written out from the encodings of rules R121, R123, R125, R131, R132 and R139. -/
def Obligations.SpecWordsDecode : Prop :=
  decodeBytes tableBook .hdr [0x01#8] = .elem (.blockStored true) 3 ∧
  decodeBytes tableBook .hdr [0xf3#8] = .elem (.blockFixed true) 3 ∧
  decodeBytes tableBook .hdr [0x04#8] = .elem (.blockDynamic false) 3 ∧
  decodeBytes tableBook .hdr [0x06#8] = .elem (.blockReserved false) 3 ∧
  decodeBytes tableBook .storedHdr [0x01#8, 0x00#8, 0xfe#8, 0xff#8] = .elem (.storedhdr 0x0001#16 0xfffe#16) 32 ∧
  decodeBytes tableBook .dynHdr [0xa2#8, 0x38#8] = .elem (.dynhdr 2#5 5#5 14#4) 14 ∧
  decodeBytes tableBook .ll [0x00#8] = .elem .eob 7 ∧
  decodeBytes tableBook .ll [0x0c#8] = .elem (.lit 0x00#8) 8 ∧
  decodeBytes tableBook .ll [0x1e#8] = .elem (.lit 0x48#8) 8 ∧
  decodeBytes tableBook .ll [0xff#8, 0x01#8] = .elem (.lit 0xff#8) 9 ∧
  decodeBytes tableBook .ll [0x40#8] = .elem .len257 7 ∧
  decodeBytes tableBook .ll [0x23#8, 0x1f#8] = .elem (.len284 31#5) 13 ∧
  decodeBytes tableBook .dist [0x04#8] = .elem (.dist4 0#1) 6 ∧
  decodeBytes tableBook .dist [0x0f#8] = .elem .dist30Invalid 5 ∧
  decodeHostWrite 0x00#32 0x00000103#32 = some (.inflate true) ∧
  decodeHostWrite 0x0C#32 0x00000007#32 = some (.setSource .len 7#32)

/-- Whatever tables and bits: an element that is decoded is well formed and no wider than the bits held (rules R133, R205), and a host write that is a command is a well-formed one (rules R62, R139). -/
def Obligations.DecodedInstructionsAreWellFormed : Prop :=
  (∀ (T : Codebook) (p : Position) (v n : Nat) (i : Instr) (w : Nat),
    decode T p v n = .elem i w → i.wellFormed = true ∧ w ≤ n) ∧
  (∀ (off val : Word) (i : Instr), decodeHostWrite off val = some i → i.wellFormed = true)

/-! ## Table builder (41_table_builder.md) -/

/-- The closed forms of the ROMs (rules R251, R252) are what the builder builds from the fixed lengths. -/
def Obligations.FixedTablesAreBuilt : Prop :=
  (∃ T, build .lens fixedLitLens [] = some T ∧ ∀ x, x < 512 → Ram.read Entry.zero T x = ltFixed x) ∧
  (∃ T, build .dists fixedDistLens [] = some T ∧ ∀ x, x < 128 → Ram.read Entry.zero T x = dtFixed x)

/-- The loop of rule R233 counts the code space that is left: `2^k` less what the codes of length up to `k` take. -/
def Obligations.LeftCountsTheFreeCodeSpace : Prop :=
  ∀ (L : List Nat) (k : Nat),
    leftAfter L k = 2 ^ k - ((List.range k).map fun j => (countLen L (j + 1) : Int) * 2 ^ (k - (j + 1))).sum

/-- Canonical codes fit their lengths and no code is the beginning of another (rules R236, R237). -/
def Obligations.CanonicalCodesArePrefixFree : Prop :=
  ∀ L : List Nat, (∀ x ∈ L, x ≤ 15) → overSubscribed L = false →
    ∀ i j : Nat, i < L.length → j < L.length → i ≠ j → L.getD i 0 ≠ 0 → L.getD i 0 ≤ L.getD j 0 →
      canonicalCode L i < 2 ^ L.getD i 0 ∧
      canonicalCode L j >>> (L.getD j 0 - L.getD i 0) ≠ canonicalCode L i

/-- Lookup correctness: where the reservoir begins with a symbol's code, the lookup returns that symbol's entry, for every table that was built (rule R247). -/
def Obligations.LookupReturnsTheSymbol : Prop :=
  ∀ (m : Mode) (L : List Nat) (old T : Ram Entry), (∀ x ∈ L, x ≤ 15) → build m L old = some T →
    ∀ i : Nat, i < L.length → L.getD i 0 ≠ 0 →
      ∀ v : Nat, v % 2 ^ L.getD i 0 = rev (L.getD i 0) (canonicalCode L i) →
        lookup (Ram.read Entry.zero T) m.root v = symEntry m i (L.getD i 0)

/-- Root totality (rule R246): every root entry of a built table is of a known kind and every SUBTABLE lies within the capacity; and whatever the reservoir holds, the lookup ends at a symbol's entry or at a filler (rule R245). -/
def Obligations.BuiltTablesAreTotal : Prop :=
  ∀ (m : Mode) (L : List Nat) (old T : Ram Entry), (∀ x ∈ L, x ≤ 15) → build m L old = some T →
    (∀ x, x < 2 ^ m.root →
      let e := Ram.read Entry.zero T x
      (e.tag = tagLiteral ∨ e.tag = tagEndOfBlock ∨ e.tag = tagInvalid ∨ e.tag.toNat ≤ 13 ∨
        (e.tag = tagSubtable ∧ e.info.toNat + 2 ^ (e.length.toNat - m.root) ≤ m.cap))) ∧
    (∀ v : Nat, lookup (Ram.read Entry.zero T) m.root v = fillerEntry ∨
      ∃ i, i < L.length ∧ L.getD i 0 ≠ 0 ∧ lookup (Ram.read Entry.zero T) m.root v = symEntry m i (L.getD i 0))

/-- A block with no distance codes: the build succeeds, and every lookup gives INVALID with length 1 (rules R235, R245). -/
def Obligations.EmptyDistanceCodeIsInvalid : Prop :=
  ∀ (n : Nat) (old : Ram Entry), ∃ T, build .dists (List.replicate n 0) old = some T ∧
    ∀ v : Nat, lookup (Ram.read Entry.zero T) Config.droot v = Entry.of 0x13 0 1

/-! ## Reservoir (40_bit_reservoir.md) -/

/-- `take_byte()` places the next source byte above the bits held and moves the span on by one (rules R201, R202). -/
def Obligations.PullPlacesTheNextByte : Prop :=
  ∀ s : State, s.bc.toNat + 8 ≤ 64 → s.res.toNat < 2 ^ s.bc.toNat →
    takeByte s = { s with
      res := (takeByte s).res, bc := s.bc + 8, srcPtr := s.srcPtr + 1, srcLen := s.srcLen - 1, consumedAny := true } ∧
    (∀ j, j < s.bc.toNat → (takeByte s).res.getLsbD j = s.res.getLsbD j) ∧
    (∀ j, j < 8 → (takeByte s).res.getLsbD (s.bc.toNat + j) = (Memory.read s.mem s.srcPtr).getLsbD j) ∧
    (∀ j, s.bc.toNat + 8 ≤ j → (takeByte s).res.getLsbD j = false)

/-- `drop(n)`, `n ≤ bc`, discards `n` bits and keeps the bits above `bc` clear (rule R206). -/
def Obligations.DropDiscardsBits : Prop :=
  ∀ (s : State) (n : Nat), n ≤ s.bc.toNat → s.res.toNat < 2 ^ s.bc.toNat →
    drop n s = { s with res := s.res >>> n, bc := (drop n s).bc } ∧
    (drop n s).bc.toNat = s.bc.toNat - n ∧
    (∀ j, (drop n s).res.getLsbD j = s.res.getLsbD (n + j)) ∧
    (drop n s).res.toNat < 2 ^ (drop n s).bc.toNat

/-- `align()` drops `bc mod 8` bits, and a second one drops none (rules R200, R207). -/
def Obligations.AlignReachesAByteBoundary : Prop :=
  ∀ s : State,
    align s = { s with res := s.res >>> (s.bc.toNat % 8), bc := (align s).bc } ∧
    (align s).bc.toNat = s.bc.toNat - s.bc.toNat % 8 ∧ (align s).bc.toNat % 8 = 0 ∧ align (align s) = align s

/-- The pushback of the fast path gives back exactly the whole bytes that a refill took too many (rule R474). -/
def Obligations.PushbackUndoesRefill : Prop :=
  ∀ (s : State) (k : Nat), s.bc.toNat ≤ 7 → s.res.toNat < 2 ^ s.bc.toNat → s.consumedAny = true →
    k ≤ s.srcLen.toNat → s.bc.toNat + 8 * k ≤ 64 → pushback (refill k s) = s

/-! ## Steps of a running INFLATE (rules R200, R310, R340, R380) -/

/-- A step runs the decoded instruction: where the reservoir holds the whole element that stands at the position, the step is that instruction on the state whose bits are dropped. Before LEN the reservoir is aligned (rule R316). -/
def Obligations.StepRunsTheHeldElement : Prop :=
  ∀ (s : State) (p : Position) (i : Instr) (w : Nat), s.inflating ≠ none → phase s = .element p →
    decode (codebook s) p (beforeFetch p s).res.toNat (beforeFetch p s).bc.toNat = .elem i w →
    step s = exec i (drop w (beforeFetch p s))

/-- Where the bits held end before the code or field does, and the source has a byte, the step is that of the state with one more byte pulled (rules R202, R204, R382). -/
def Obligations.StepPullsWhatItNeeds : Prop :=
  ∀ (s : State) (p : Position), s.inflating ≠ none → phase s = .element p →
    decodeAt (codebook s) p (beforeFetch p s).res.toNat (beforeFetch p s).bc.toNat = .short →
    s.srcLen ≠ 0 → (beforeFetch p s).bc.toNat + 8 ≤ 64 →
    step s = step (takeByte (beforeFetch p s))

/-- Between a symbol and its extra bits the step passes through the state that holds the symbol in the registers, the one a suspension would leave (rules R344, R386, R418). -/
def Obligations.StepHoldsASymbolForItsExtraBits : Prop :=
  ∀ (s : State) (p q : Position) (k : Nat), s.inflating ≠ none → phase s = .element p →
    decodeAt (codebook s) p s.res.toNat s.bc.toNat = .operand q k →
    step s = step (enterOperand q (drop k s))

/-- Where the bits held end before the code or field does and the source is empty, the INFLATE ends: with SOURCE_EXHAUSTED after a fold, or with INPUT_END where no more input follows. The bits held stay (rules R200, R503, R504, R505). -/
def Obligations.StepSuspendsForInput : Prop :=
  ∀ (s : State) (p : Position), phase s = .element p →
    decodeAt (codebook s) p (beforeFetch p s).res.toNat (beforeFetch p s).bc.toNat = .short → s.srcLen = 0 →
    (s.inflating = some false →
      step s = .next { fold (beforeFetch p s) with status := .sourceExhausted, inflating := none }) ∧
    (s.inflating = some true → step s = .next (raise .inputEnd (beforeFetch p s)))

/-- FIXED-SELECT (rule R319). -/
def Obligations.FixedSelectStep : Prop :=
  ∀ s : State, s.inflating ≠ none → s.bstate = .fixed →
    step s = .next { s with tsel := .fixed, sub := .litLen, litPending := false, bstate := .decoding } ∧
    ∀ t, step s = .next t → (codebook t).lt = ltFixed ∧ (codebook t).dt = dtFixed

/-- DYN-CTBUILD (rule R343): the code-length table is built from `clens`, or BAD_TREE is raised. What a failed build leaves in `CT` is free (log entry 5). -/
def Obligations.CodeLengthTableStep : Prop :=
  ∀ s : State, s.inflating ≠ none → s.bstate = .dynamic → s.dphase = .clens → s.idx = s.hclen.setWidth 9 →
    (∀ T, build .codes (clensVector s) s.ct = some T → step s = .next { s with ct := T, idx := 0, dphase := .lens }) ∧
    (build .codes (clensVector s) s.ct = none →
      step s = .next (raise .badTree { s with ct := unspecifiedTable Config.ccap s }))

/-- DYN-BUILD (rules R350, R351): both tables are built from the one length vector and the body begins, or BAD_TREE is raised. What a failed build leaves in the table is free (log entry 5). -/
def Obligations.BlockTablesStep : Prop :=
  ∀ s : State, s.inflating ≠ none → s.bstate = .dynamic → s.dphase = .lens → s.idx.toNat = s.hlit.toNat + s.hdist.toNat →
    (Ram.read 0 s.lens 256 = 0 → step s = .next (raise .badTree s)) ∧
    (Ram.read 0 s.lens 256 ≠ 0 → build .lens (lensSlice s 0 s.hlit.toNat) s.lt = none →
      step s = .next (raise .badTree { s with lt := unspecifiedTable Config.lcap s })) ∧
    (∀ T, Ram.read 0 s.lens 256 ≠ 0 → build .lens (lensSlice s 0 s.hlit.toNat) s.lt = some T →
      (build .dists (lensSlice s s.hlit.toNat s.hdist.toNat) s.dt = none →
        step s = .next (raise .badTree { s with lt := T, dt := unspecifiedTable Config.dcap s })) ∧
      (∀ U, build .dists (lensSlice s s.hlit.toNat s.hdist.toNat) s.dt = some U →
        step s = .next { s with lt := T, dt := U, tsel := .dynamic, sub := .litLen, litPending := false, bstate := .decoding }))

/-- DEC-EMIT (rule R381): the held literal is written where the target has room, and nothing changes but the suspension where it has none. -/
def Obligations.EmitStep : Prop :=
  ∀ s : State, s.inflating ≠ none → s.bstate = .decoding → s.sub = .litLen → s.litPending = true →
    (s.dstLen ≠ 0 → step s = .next { s with
      mem := Memory.write s.mem s.dstPtr (s.auxLen.setWidth 8), dstPtr := s.dstPtr + 1, dstLen := s.dstLen - 1, litPending := false }) ∧
    (s.dstLen = 0 → step s = .next { fold s with status := .targetExhausted, inflating := none })

/-- DEC-COPY with room for the whole match: every byte written is the byte `aux_dist` places before it, in this command's output or in the window, its own earlier bytes included; nothing else changes (rules R284, R285, R289, R451). -/
def Obligations.CopyRepeatsTheHistory : Prop :=
  ∀ s : State, s.inflating ≠ none → s.bstate = .decoding → s.sub = .copy → Memory.wf s.mem = true →
    1 ≤ s.auxDist.toNat → s.auxLen.toNat ≤ s.dstLen.toNat → produced s + s.dstLen.toNat < 2 ^ 32 →
    ∃ t, step s = .next t ∧
      t = { s with
        mem := t.mem, dstPtr := s.dstPtr + s.auxLen.setWidth 32, dstLen := s.dstLen - s.auxLen.setWidth 32, auxLen := 0, sub := .litLen } ∧
      (∀ j, j < s.auxLen.toNat → Memory.read t.mem (s.dstPtr + BitVec.ofNat 32 j) =
        if s.auxDist.toNat ≤ produced s + j
        then Memory.read t.mem (s.dstPtr + BitVec.ofNat 32 j - s.auxDist.setWidth 32)
        else windowByte s (s.wEnd - BitVec.ofNat 15 (s.auxDist.toNat - (produced s + j)))) ∧
      (∀ a : Word, s.auxLen.toNat ≤ (a - s.dstPtr).toNat → Memory.read t.mem a = Memory.read s.mem a)

/-- DEC-COPY with less room than the match: as many bytes are copied as the target takes, the rest stays in `aux_len`, and the INFLATE ends with TARGET_EXHAUSTED (rules R200, R451, R502). -/
def Obligations.CopySuspendsWhenTheTargetFills : Prop :=
  ∀ s : State, s.inflating ≠ none → s.bstate = .decoding → s.sub = .copy → Memory.wf s.mem = true →
    1 ≤ s.auxDist.toNat → s.dstLen.toNat < s.auxLen.toNat → produced s + s.dstLen.toNat < 2 ^ 32 →
    ∃ t, step s = .next { fold t with status := .targetExhausted, inflating := none } ∧
      t = { s with
        mem := t.mem, dstPtr := s.dstPtr + s.dstLen, dstLen := 0, auxLen := s.auxLen - s.dstLen.setWidth 9 } ∧
      (∀ j, j < s.dstLen.toNat → Memory.read t.mem (s.dstPtr + BitVec.ofNat 32 j) =
        if s.auxDist.toNat ≤ produced s + j
        then Memory.read t.mem (s.dstPtr + BitVec.ofNat 32 j - s.auxDist.setWidth 32)
        else windowByte s (s.wEnd - BitVec.ofNat 15 (s.auxDist.toNat - (produced s + j)))) ∧
      (∀ a : Word, ¬ inTarget s a → Memory.read t.mem a = Memory.read s.mem a)

/-! ## Block headers and stored blocks (43_block_header_stored.md) -/

/-- The four block headers, each with its whole effect (rules R311 to R315). -/
def Obligations.BlockHeadersComplete : Prop :=
  ∀ (s : State) (final : Bool),
    exec (.blockStored final) s = .next { s with bfinal := final, sphase := .lenHdr, bstate := .stored } ∧
    exec (.blockFixed final) s = .next { s with bfinal := final, bstate := .fixed } ∧
    exec (.blockDynamic final) s = .next { s with bfinal := final, dphase := .counts, bstate := .dynamic } ∧
    exec (.blockReserved final) s = .next (raise .badBlock { s with bfinal := final })

/-- STOREDHDR: a length with its complement begins the copy, any other pair raises BAD_BLOCK (rule R316). -/
def Obligations.StoredHeaderCompletes : Prop :=
  ∀ (s : State) (len nlen : BitVec 16),
    (nlen = len ^^^ 0xFFFF#16 → exec (.storedhdr len nlen) s = .next { s with srem := len, sphase := .copy }) ∧
    (nlen ≠ len ^^^ 0xFFFF#16 → exec (.storedhdr len nlen) s = .next (raise .badBlock s))

/-- STORED_DATA where both spans have room and do not meet: `srem` bytes go from the source to the target, nothing else changes, and the block ends (rules R317, R318, R321). -/
def Obligations.StoredDataCopiesTheSource : Prop :=
  ∀ s : State, Memory.wf s.mem = true → s.bc.toNat < 8 → s.srem.toNat ≤ s.srcLen.toNat → s.srem.toNat ≤ s.dstLen.toNat →
    (∀ j k, j < s.srem.toNat → k < s.srem.toNat → s.srcPtr + BitVec.ofNat 32 j ≠ s.dstPtr + BitVec.ofNat 32 k) →
    ∃ t, exec .storedData s = .next (afterStep (endBlock t)) ∧
      t = { s with
        mem := t.mem, srem := 0, consumedAny := s.consumedAny || s.srem != 0
        srcPtr := s.srcPtr + s.srem.setWidth 32, srcLen := s.srcLen - s.srem.setWidth 32
        dstPtr := s.dstPtr + s.srem.setWidth 32, dstLen := s.dstLen - s.srem.setWidth 32 } ∧
      (∀ j, j < s.srem.toNat →
        Memory.read t.mem (s.dstPtr + BitVec.ofNat 32 j) = Memory.read s.mem (s.srcPtr + BitVec.ofNat 32 j)) ∧
      (∀ a : Word, s.srem.toNat ≤ (a - s.dstPtr).toNat → Memory.read t.mem a = Memory.read s.mem a)

/-- STORED_DATA with a span too short: the bytes that fit are copied and `srem` keeps the rest. Where both spans end at the same byte the target is reported, because it is checked first (rules R317, R609, R620). -/
def Obligations.StoredDataSuspends : Prop :=
  ∀ s : State, Memory.wf s.mem = true → s.bc.toNat < 8 →
    (∀ j k, j < s.srem.toNat → k < s.srem.toNat → s.srcPtr + BitVec.ofNat 32 j ≠ s.dstPtr + BitVec.ofNat 32 k) →
    (s.dstLen.toNat < s.srem.toNat → s.dstLen.toNat ≤ s.srcLen.toNat →
      ∃ t, exec .storedData s = .next { fold t with status := .targetExhausted, inflating := none } ∧
        t = { s with
          mem := t.mem, srem := s.srem - s.dstLen.setWidth 16, consumedAny := s.consumedAny || s.dstLen != 0
          srcPtr := s.srcPtr + s.dstLen, srcLen := s.srcLen - s.dstLen, dstPtr := s.dstPtr + s.dstLen, dstLen := 0 } ∧
        (∀ j, j < s.dstLen.toNat →
          Memory.read t.mem (s.dstPtr + BitVec.ofNat 32 j) = Memory.read s.mem (s.srcPtr + BitVec.ofNat 32 j)) ∧
        (∀ a : Word, ¬ inTarget s a → Memory.read t.mem a = Memory.read s.mem a)) ∧
    (s.srcLen.toNat < s.srem.toNat → s.srcLen.toNat < s.dstLen.toNat →
      ∃ t, exec .storedData s = .next (suspendSource t) ∧
        t = { s with
          mem := t.mem, srem := s.srem - s.srcLen.setWidth 16, consumedAny := s.consumedAny || s.srcLen != 0
          srcPtr := s.srcPtr + s.srcLen, srcLen := 0, dstPtr := s.dstPtr + s.srcLen, dstLen := s.dstLen - s.srcLen } ∧
        (∀ j, j < s.srcLen.toNat →
          Memory.read t.mem (s.dstPtr + BitVec.ofNat 32 j) = Memory.read s.mem (s.srcPtr + BitVec.ofNat 32 j)) ∧
        (∀ a : Word, s.srcLen.toNat ≤ (a - s.dstPtr).toNat → Memory.read t.mem a = Memory.read s.mem a))

/-- An empty stored block ends at once, even with no room in the target (rule R320). -/
def Obligations.EmptyStoredBlockEnds : Prop :=
  ∀ s : State, s.srem = 0 →
    (s.bfinal = false → exec .storedData s = .next { s with bstate := .needHeader }) ∧
    (s.bfinal = true → exec .storedData s =
      .next { fold { s with bstate := .finalConsumed } with status := .ok, inflating := none })

/-! ## Dynamic header (44_dynamic_header.md) -/

/-- DYNHDR: legal counts go to their registers, `clens` is cleared and its lengths come next; a count out of range raises BAD_TREE (rules R340, R341). -/
def Obligations.CountsComplete : Prop :=
  ∀ (s : State) (hlit hdist : BitVec 5) (hclen : BitVec 4),
    (hlit.toNat + 257 ≤ 286 → hdist.toNat + 1 ≤ 30 → ∃ t, exec (.dynhdr hlit hdist hclen) s = .next t ∧
      t.hlit.toNat = hlit.toNat + 257 ∧ t.hdist.toNat = hdist.toNat + 1 ∧ t.hclen.toNat = hclen.toNat + 4 ∧
      (∀ i, Ram.read 0 t.clens i = 0) ∧
      t = { s with hlit := t.hlit, hdist := t.hdist, hclen := t.hclen, clens := t.clens, idx := 0, dphase := .clens }) ∧
    (286 < hlit.toNat + 257 ∨ 30 < hdist.toNat + 1 → ∃ t, exec (.dynhdr hlit hdist hclen) s = .next (raise .badTree t) ∧
      t = { s with hlit := t.hlit, hdist := t.hdist, hclen := t.hclen })

/-- CLL: the length goes to the place that ORDER gives, every other one stays (rules R126, R342). -/
def Obligations.CodeLengthLengthsComplete : Prop :=
  ∀ (s : State) (len : BitVec 3), Ram.wf 19 0 s.clens = true → s.idx.toNat < 19 →
    ∃ t, exec (.cll len) s = .next t ∧ t = { s with clens := t.clens, idx := s.idx + 1 } ∧
      (∀ k, Ram.read 0 t.clens k =
        if some k = [16, 17, 18, 0, 8, 7, 9, 6, 10, 5, 11, 4, 12, 3, 13, 2, 14, 1, 15][s.idx.toNat]? then len
        else Ram.read 0 s.clens k)

/-- The code-length symbols 0 to 15: `lens[idx]` takes the symbol's value and `idx` moves on by one (rule R345). -/
def Obligations.CodeLengthSymbolsComplete : Prop :=
  ∀ s : State,
    exec .cl0 s = .next { s with lens := Ram.write 320 0 s.idx.toNat 0 s.lens, idx := s.idx + 1 } ∧
    exec .cl1 s = .next { s with lens := Ram.write 320 0 s.idx.toNat 1 s.lens, idx := s.idx + 1 } ∧
    exec .cl2 s = .next { s with lens := Ram.write 320 0 s.idx.toNat 2 s.lens, idx := s.idx + 1 } ∧
    exec .cl3 s = .next { s with lens := Ram.write 320 0 s.idx.toNat 3 s.lens, idx := s.idx + 1 } ∧
    exec .cl4 s = .next { s with lens := Ram.write 320 0 s.idx.toNat 4 s.lens, idx := s.idx + 1 } ∧
    exec .cl5 s = .next { s with lens := Ram.write 320 0 s.idx.toNat 5 s.lens, idx := s.idx + 1 } ∧
    exec .cl6 s = .next { s with lens := Ram.write 320 0 s.idx.toNat 6 s.lens, idx := s.idx + 1 } ∧
    exec .cl7 s = .next { s with lens := Ram.write 320 0 s.idx.toNat 7 s.lens, idx := s.idx + 1 } ∧
    exec .cl8 s = .next { s with lens := Ram.write 320 0 s.idx.toNat 8 s.lens, idx := s.idx + 1 } ∧
    exec .cl9 s = .next { s with lens := Ram.write 320 0 s.idx.toNat 9 s.lens, idx := s.idx + 1 } ∧
    exec .cl10 s = .next { s with lens := Ram.write 320 0 s.idx.toNat 10 s.lens, idx := s.idx + 1 } ∧
    exec .cl11 s = .next { s with lens := Ram.write 320 0 s.idx.toNat 11 s.lens, idx := s.idx + 1 } ∧
    exec .cl12 s = .next { s with lens := Ram.write 320 0 s.idx.toNat 12 s.lens, idx := s.idx + 1 } ∧
    exec .cl13 s = .next { s with lens := Ram.write 320 0 s.idx.toNat 13 s.lens, idx := s.idx + 1 } ∧
    exec .cl14 s = .next { s with lens := Ram.write 320 0 s.idx.toNat 14 s.lens, idx := s.idx + 1 } ∧
    exec .cl15 s = .next { s with lens := Ram.write 320 0 s.idx.toNat 15 s.lens, idx := s.idx + 1 }

/-- REP16, REP17 and REP18 where the repeat ends within the vector: `r` equal lengths from `idx` on, the previous length or 0 (rules R346, R347, R348, R352). The registers of the pending symbol are left as the step that reads the extra bits leaves them. -/
def Obligations.RepeatsComplete : Prop :=
  ∀ s : State, Ram.wf 320 0 s.lens = true → s.hlit.toNat + s.hdist.toNat ≤ 320 →
    (∀ x : BitVec 2, s.idx ≠ 0 → s.idx.toNat + (3 + x.toNat) ≤ s.hlit.toNat + s.hdist.toNat →
      ∃ t, exec (.rep16 x) s = .next t ∧ t = { s with lens := t.lens, idx := t.idx, dsym := 16, dphase := .lens } ∧
        t.idx.toNat = s.idx.toNat + (3 + x.toNat) ∧
        ∀ k, Ram.read 0 t.lens k = if s.idx.toNat ≤ k ∧ k < s.idx.toNat + (3 + x.toNat)
          then Ram.read 0 s.lens (s.idx.toNat - 1) else Ram.read 0 s.lens k) ∧
    (∀ x : BitVec 3, s.idx.toNat + (3 + x.toNat) ≤ s.hlit.toNat + s.hdist.toNat →
      ∃ t, exec (.rep17 x) s = .next t ∧ t = { s with lens := t.lens, idx := t.idx, dsym := 17, dphase := .lens } ∧
        t.idx.toNat = s.idx.toNat + (3 + x.toNat) ∧
        ∀ k, Ram.read 0 t.lens k = if s.idx.toNat ≤ k ∧ k < s.idx.toNat + (3 + x.toNat) then 0 else Ram.read 0 s.lens k) ∧
    (∀ x : BitVec 7, s.idx.toNat + (11 + x.toNat) ≤ s.hlit.toNat + s.hdist.toNat →
      ∃ t, exec (.rep18 x) s = .next t ∧ t = { s with lens := t.lens, idx := t.idx, dsym := 18, dphase := .lens } ∧
        t.idx.toNat = s.idx.toNat + (11 + x.toNat) ∧
        ∀ k, Ram.read 0 t.lens k = if s.idx.toNat ≤ k ∧ k < s.idx.toNat + (11 + x.toNat) then 0 else Ram.read 0 s.lens k)

/-- A repeat with no previous length or past the end of the vector raises BAD_TREE and writes no length (rules R346, R349). -/
def Obligations.RepeatsTrap : Prop :=
  ∀ s : State,
    (∀ x : BitVec 2, s.idx = 0 ∨ s.hlit.toNat + s.hdist.toNat < s.idx.toNat + (3 + x.toNat) →
      exec (.rep16 x) s = .next (raise .badTree { s with dsym := 16, dphase := .rep })) ∧
    (∀ x : BitVec 3, s.hlit.toNat + s.hdist.toNat < s.idx.toNat + (3 + x.toNat) →
      exec (.rep17 x) s = .next (raise .badTree { s with dsym := 17, dphase := .rep })) ∧
    (∀ x : BitVec 7, s.hlit.toNat + s.hdist.toNat < s.idx.toNat + (11 + x.toNat) →
      exec (.rep18 x) s = .next (raise .badTree { s with dsym := 18, dphase := .rep }))

/-! ## Decoding loop (45_decoding_loop.md) -/

/-- LIT holds its byte until there is room (rule R384); EOB ends the block, and the INFLATE with OK where the block was the final one (rules R318, R385, R501). -/
def Obligations.LiteralAndEndOfBlockComplete : Prop :=
  ∀ s : State,
    (∀ b : Byte, exec (.lit b) s = .next { s with auxLen := b.setWidth 9, litPending := true }) ∧
    (s.bfinal = false → exec .eob s = .next { s with bstate := .needHeader }) ∧
    (s.bfinal = true → exec .eob s =
      .next { fold { s with bstate := .finalConsumed } with status := .ok, inflating := none })

/-- The length symbols 257 to 268: base plus extra value (rules R387 to R398, R417). -/
def Obligations.LengthSymbols257To268Complete : Prop :=
  ∀ s : State,
    exec .len257 s = .next { s with auxLen := 3, auxExtra := 0, sub := .distSym } ∧
    exec .len258 s = .next { s with auxLen := 4, auxExtra := 0, sub := .distSym } ∧
    exec .len259 s = .next { s with auxLen := 5, auxExtra := 0, sub := .distSym } ∧
    exec .len260 s = .next { s with auxLen := 6, auxExtra := 0, sub := .distSym } ∧
    exec .len261 s = .next { s with auxLen := 7, auxExtra := 0, sub := .distSym } ∧
    exec .len262 s = .next { s with auxLen := 8, auxExtra := 0, sub := .distSym } ∧
    exec .len263 s = .next { s with auxLen := 9, auxExtra := 0, sub := .distSym } ∧
    exec .len264 s = .next { s with auxLen := 10, auxExtra := 0, sub := .distSym } ∧
    (∀ x : BitVec 1, exec (.len265 x) s = .next { s with auxLen := BitVec.ofNat 9 (11 + x.toNat), auxExtra := 1, sub := .distSym }) ∧
    (∀ x : BitVec 1, exec (.len266 x) s = .next { s with auxLen := BitVec.ofNat 9 (13 + x.toNat), auxExtra := 1, sub := .distSym }) ∧
    (∀ x : BitVec 1, exec (.len267 x) s = .next { s with auxLen := BitVec.ofNat 9 (15 + x.toNat), auxExtra := 1, sub := .distSym }) ∧
    (∀ x : BitVec 1, exec (.len268 x) s = .next { s with auxLen := BitVec.ofNat 9 (17 + x.toNat), auxExtra := 1, sub := .distSym })

/-- The length symbols 269 to 285: base plus extra value; 278, 279 and 280 have 4 extra bits (rules R399 to R415, R417, R454). -/
def Obligations.LengthSymbols269To285Complete : Prop :=
  ∀ s : State,
    (∀ x : BitVec 2, exec (.len269 x) s = .next { s with auxLen := BitVec.ofNat 9 (19 + x.toNat), auxExtra := 2, sub := .distSym }) ∧
    (∀ x : BitVec 2, exec (.len270 x) s = .next { s with auxLen := BitVec.ofNat 9 (23 + x.toNat), auxExtra := 2, sub := .distSym }) ∧
    (∀ x : BitVec 2, exec (.len271 x) s = .next { s with auxLen := BitVec.ofNat 9 (27 + x.toNat), auxExtra := 2, sub := .distSym }) ∧
    (∀ x : BitVec 2, exec (.len272 x) s = .next { s with auxLen := BitVec.ofNat 9 (31 + x.toNat), auxExtra := 2, sub := .distSym }) ∧
    (∀ x : BitVec 3, exec (.len273 x) s = .next { s with auxLen := BitVec.ofNat 9 (35 + x.toNat), auxExtra := 3, sub := .distSym }) ∧
    (∀ x : BitVec 3, exec (.len274 x) s = .next { s with auxLen := BitVec.ofNat 9 (43 + x.toNat), auxExtra := 3, sub := .distSym }) ∧
    (∀ x : BitVec 3, exec (.len275 x) s = .next { s with auxLen := BitVec.ofNat 9 (51 + x.toNat), auxExtra := 3, sub := .distSym }) ∧
    (∀ x : BitVec 3, exec (.len276 x) s = .next { s with auxLen := BitVec.ofNat 9 (59 + x.toNat), auxExtra := 3, sub := .distSym }) ∧
    (∀ x : BitVec 4, exec (.len277 x) s = .next { s with auxLen := BitVec.ofNat 9 (67 + x.toNat), auxExtra := 4, sub := .distSym }) ∧
    (∀ x : BitVec 4, exec (.len278 x) s = .next { s with auxLen := BitVec.ofNat 9 (83 + x.toNat), auxExtra := 4, sub := .distSym }) ∧
    (∀ x : BitVec 4, exec (.len279 x) s = .next { s with auxLen := BitVec.ofNat 9 (99 + x.toNat), auxExtra := 4, sub := .distSym }) ∧
    (∀ x : BitVec 4, exec (.len280 x) s = .next { s with auxLen := BitVec.ofNat 9 (115 + x.toNat), auxExtra := 4, sub := .distSym }) ∧
    (∀ x : BitVec 5, exec (.len281 x) s = .next { s with auxLen := BitVec.ofNat 9 (131 + x.toNat), auxExtra := 5, sub := .distSym }) ∧
    (∀ x : BitVec 5, exec (.len282 x) s = .next { s with auxLen := BitVec.ofNat 9 (163 + x.toNat), auxExtra := 5, sub := .distSym }) ∧
    (∀ x : BitVec 5, exec (.len283 x) s = .next { s with auxLen := BitVec.ofNat 9 (195 + x.toNat), auxExtra := 5, sub := .distSym }) ∧
    (∀ x : BitVec 5, exec (.len284 x) s = .next { s with auxLen := BitVec.ofNat 9 (227 + x.toNat), auxExtra := 5, sub := .distSym }) ∧
    exec .len285 s = .next { s with auxLen := 258, auxExtra := 0, sub := .distSym }

/-- The invalid symbols of the fixed codes, and with them the INVALID fillers, raise BAD_CODE (rules R416, R449, R605). -/
def Obligations.InvalidSymbolsRaiseBadCode : Prop :=
  ∀ s : State,
    exec .ll286Invalid s = .next (raise .badCode s) ∧ exec .ll287Invalid s = .next (raise .badCode s) ∧
    exec .dist30Invalid s = .next (raise .badCode s) ∧ exec .dist31Invalid s = .next (raise .badCode s)

/-- The distance symbols 0 to 14 whose distance the history reaches: base plus extra value, and the copy comes next (rules R419 to R433, R450). -/
def Obligations.DistanceSymbols0To14Complete : Prop :=
  ∀ s : State,
    (1 ≤ available s → exec .dist0 s = .next { s with auxDist := 1, auxExtra := 0, sub := .copy }) ∧
    (2 ≤ available s → exec .dist1 s = .next { s with auxDist := 2, auxExtra := 0, sub := .copy }) ∧
    (3 ≤ available s → exec .dist2 s = .next { s with auxDist := 3, auxExtra := 0, sub := .copy }) ∧
    (4 ≤ available s → exec .dist3 s = .next { s with auxDist := 4, auxExtra := 0, sub := .copy }) ∧
    (∀ x : BitVec 1, 5 + x.toNat ≤ available s → exec (.dist4 x) s = .next { s with auxDist := BitVec.ofNat 16 (5 + x.toNat), auxExtra := 1, sub := .copy }) ∧
    (∀ x : BitVec 1, 7 + x.toNat ≤ available s → exec (.dist5 x) s = .next { s with auxDist := BitVec.ofNat 16 (7 + x.toNat), auxExtra := 1, sub := .copy }) ∧
    (∀ x : BitVec 2, 9 + x.toNat ≤ available s → exec (.dist6 x) s = .next { s with auxDist := BitVec.ofNat 16 (9 + x.toNat), auxExtra := 2, sub := .copy }) ∧
    (∀ x : BitVec 2, 13 + x.toNat ≤ available s → exec (.dist7 x) s = .next { s with auxDist := BitVec.ofNat 16 (13 + x.toNat), auxExtra := 2, sub := .copy }) ∧
    (∀ x : BitVec 3, 17 + x.toNat ≤ available s → exec (.dist8 x) s = .next { s with auxDist := BitVec.ofNat 16 (17 + x.toNat), auxExtra := 3, sub := .copy }) ∧
    (∀ x : BitVec 3, 25 + x.toNat ≤ available s → exec (.dist9 x) s = .next { s with auxDist := BitVec.ofNat 16 (25 + x.toNat), auxExtra := 3, sub := .copy }) ∧
    (∀ x : BitVec 4, 33 + x.toNat ≤ available s → exec (.dist10 x) s = .next { s with auxDist := BitVec.ofNat 16 (33 + x.toNat), auxExtra := 4, sub := .copy }) ∧
    (∀ x : BitVec 4, 49 + x.toNat ≤ available s → exec (.dist11 x) s = .next { s with auxDist := BitVec.ofNat 16 (49 + x.toNat), auxExtra := 4, sub := .copy }) ∧
    (∀ x : BitVec 5, 65 + x.toNat ≤ available s → exec (.dist12 x) s = .next { s with auxDist := BitVec.ofNat 16 (65 + x.toNat), auxExtra := 5, sub := .copy }) ∧
    (∀ x : BitVec 5, 97 + x.toNat ≤ available s → exec (.dist13 x) s = .next { s with auxDist := BitVec.ofNat 16 (97 + x.toNat), auxExtra := 5, sub := .copy }) ∧
    (∀ x : BitVec 6, 129 + x.toNat ≤ available s → exec (.dist14 x) s = .next { s with auxDist := BitVec.ofNat 16 (129 + x.toNat), auxExtra := 6, sub := .copy })

/-- The distance symbols 15 to 29 whose distance the history reaches: base plus extra value, and the copy comes next (rules R434 to R448, R450). -/
def Obligations.DistanceSymbols15To29Complete : Prop :=
  ∀ s : State,
    (∀ x : BitVec 6, 193 + x.toNat ≤ available s → exec (.dist15 x) s = .next { s with auxDist := BitVec.ofNat 16 (193 + x.toNat), auxExtra := 6, sub := .copy }) ∧
    (∀ x : BitVec 7, 257 + x.toNat ≤ available s → exec (.dist16 x) s = .next { s with auxDist := BitVec.ofNat 16 (257 + x.toNat), auxExtra := 7, sub := .copy }) ∧
    (∀ x : BitVec 7, 385 + x.toNat ≤ available s → exec (.dist17 x) s = .next { s with auxDist := BitVec.ofNat 16 (385 + x.toNat), auxExtra := 7, sub := .copy }) ∧
    (∀ x : BitVec 8, 513 + x.toNat ≤ available s → exec (.dist18 x) s = .next { s with auxDist := BitVec.ofNat 16 (513 + x.toNat), auxExtra := 8, sub := .copy }) ∧
    (∀ x : BitVec 8, 769 + x.toNat ≤ available s → exec (.dist19 x) s = .next { s with auxDist := BitVec.ofNat 16 (769 + x.toNat), auxExtra := 8, sub := .copy }) ∧
    (∀ x : BitVec 9, 1025 + x.toNat ≤ available s → exec (.dist20 x) s = .next { s with auxDist := BitVec.ofNat 16 (1025 + x.toNat), auxExtra := 9, sub := .copy }) ∧
    (∀ x : BitVec 9, 1537 + x.toNat ≤ available s → exec (.dist21 x) s = .next { s with auxDist := BitVec.ofNat 16 (1537 + x.toNat), auxExtra := 9, sub := .copy }) ∧
    (∀ x : BitVec 10, 2049 + x.toNat ≤ available s → exec (.dist22 x) s = .next { s with auxDist := BitVec.ofNat 16 (2049 + x.toNat), auxExtra := 10, sub := .copy }) ∧
    (∀ x : BitVec 10, 3073 + x.toNat ≤ available s → exec (.dist23 x) s = .next { s with auxDist := BitVec.ofNat 16 (3073 + x.toNat), auxExtra := 10, sub := .copy }) ∧
    (∀ x : BitVec 11, 4097 + x.toNat ≤ available s → exec (.dist24 x) s = .next { s with auxDist := BitVec.ofNat 16 (4097 + x.toNat), auxExtra := 11, sub := .copy }) ∧
    (∀ x : BitVec 11, 6145 + x.toNat ≤ available s → exec (.dist25 x) s = .next { s with auxDist := BitVec.ofNat 16 (6145 + x.toNat), auxExtra := 11, sub := .copy }) ∧
    (∀ x : BitVec 12, 8193 + x.toNat ≤ available s → exec (.dist26 x) s = .next { s with auxDist := BitVec.ofNat 16 (8193 + x.toNat), auxExtra := 12, sub := .copy }) ∧
    (∀ x : BitVec 12, 12289 + x.toNat ≤ available s → exec (.dist27 x) s = .next { s with auxDist := BitVec.ofNat 16 (12289 + x.toNat), auxExtra := 12, sub := .copy }) ∧
    (∀ x : BitVec 13, 16385 + x.toNat ≤ available s → exec (.dist28 x) s = .next { s with auxDist := BitVec.ofNat 16 (16385 + x.toNat), auxExtra := 13, sub := .copy }) ∧
    (∀ x : BitVec 13, 24577 + x.toNat ≤ available s → exec (.dist29 x) s = .next { s with auxDist := BitVec.ofNat 16 (24577 + x.toNat), auxExtra := 13, sub := .copy })

/-- A distance beyond the history raises FAR_OFFSET before any byte is copied (rules R287, R450, R606). -/
def Obligations.FarDistancesRaiseFarOffset : Prop :=
  ∀ (s : State) (sym x : Nat) (i : Instr), distanceInstr sym x = some i →
    available s < dbase sym + x % 2 ^ dextra sym →
    exec i s = .next (raise .farOffset { s with
      auxDist := BitVec.ofNat 16 (dbase sym + x % 2 ^ dextra sym), auxExtra := BitVec.ofNat 4 (dextra sym), sub := .distExtra })

/-! ## Window (42_sliding_window.md) -/

/-- A fold changes no history: every legal distance reads the same byte after it as before, and the distances that are legal stay the same (rules R280, R282, R283, R288). -/
def Obligations.FoldKeepsTheHistory : Prop :=
  ∀ s : State, Ram.wf 32768 0 s.window = true → s.wCount.toNat ≤ 32768 →
    (∀ d, 1 ≤ d → d ≤ 32768 → sourceOfMatch d (fold s) = sourceOfMatch d s) ∧
    (∀ d, d ≤ 32768 → (d ≤ available (fold s) ↔ d ≤ available s)) ∧
    fold s = { s with window := (fold s).window, wEnd := (fold s).wEnd, wCount := (fold s).wCount, tbegin := s.dstPtr }

/-- SET_DICTIONARY, in every block state: with BAD nothing but `status`; and with a span that is not refused (log entry 11), too late or before RESET, BAD_STATE, else the tail of the dictionary, at most 32768 bytes, is the whole window (rules R286, R492, R497). -/
def Obligations.DictionaryFillsTheWindow : Prop :=
  ∀ s : State,
    (s.bstate = .bad → exec .setDictionary s = .next { s with status := .error }) ∧
    (s.bstate ≠ .bad → s.dictPtr.toNat + s.dictLen.toNat ≤ 2 ^ 32 →
      spansOverlap s.dictPtr s.dictLen s.dstPtr s.dstLen = false →
      (s.bstate = .uninit ∨ s.consumedAny = true → exec .setDictionary s = .next (raise .badState s)) ∧
      (s.bstate ≠ .uninit → s.consumedAny = false → Ram.wf 32768 0 s.window = true →
        ∃ t, exec .setDictionary s = .next t ∧
          t = { s with window := t.window, wEnd := t.wEnd, wCount := t.wCount, status := .ok } ∧
          t.wCount.toNat = min s.dictLen.toNat 32768 ∧ t.wEnd.toNat = min s.dictLen.toNat 32768 % 32768 ∧
          ∀ i, i < min s.dictLen.toNat 32768 → windowByte t (BitVec.ofNat 15 i) =
            Memory.read s.mem (s.dictPtr + BitVec.ofNat 32 (s.dictLen.toNat - min s.dictLen.toNat 32768 + i))))

/-! ## Commands and host accesses (47_stream_driver.md, 10_state.md) -/

/-- RESET in every state, register by register, and twice as once (rules R491, R701). Spans, `tbegin`, host memory and the RAMs stay (log entry 3). -/
def Obligations.ResetCompletes : Prop :=
  ∀ s : State,
    exec .reset s = .next { s with
      bstate := .needHeader, bfinal := false, err := .none, status := .ok, consumedAny := false
      res := 0, bc := 0, sphase := .lenHdr, srem := 0
      dphase := .counts, hlit := 0, hdist := 0, hclen := 0, idx := 0, dsym := 0
      sub := .litLen, litPending := false, auxLen := 0, auxExtra := 0, auxDist := 0
      tsel := .fixed, wCount := 0, wEnd := 0 } ∧
    exec .reset (resetRegisters s) = exec .reset s

/-- INFLATE at its start, in every block state: ERROR in BAD with nothing else changed; and with spans that are not refused (log entry 11), BAD_STATE before RESET, OK after the end with nothing else changed, and otherwise `tbegin` is latched and the steps begin (rules R495 to R499). -/
def Obligations.InflateStarts : Prop :=
  ∀ (s : State) (finalInput : Bool),
    (s.bstate = .bad → exec (.inflate finalInput) s = .next { s with status := .error }) ∧
    (s.srcPtr.toNat + s.srcLen.toNat ≤ 2 ^ 32 → s.dstPtr.toNat + s.dstLen.toNat ≤ 2 ^ 32 →
      spansOverlap s.srcPtr s.srcLen s.dstPtr s.dstLen = false →
      (s.bstate = .uninit → exec (.inflate finalInput) s = .next (raise .badState s)) ∧
      (s.bstate = .finalConsumed → exec (.inflate finalInput) s = .next { s with status := .ok }) ∧
      (s.bstate.runs = true →
        exec (.inflate finalInput) s = .next { s with tbegin := s.dstPtr, inflating := some finalInput }))

/-- The refusals that the spec asks of a model: a span that wraps and spans that overlap, in every block state but BAD (rules R86, R96, R707; that BAD is excepted and that a refusal comes before BAD_STATE: log entry 11). -/
def Obligations.WrappedOrOverlappingSpansAreRefused : Prop :=
  ∀ (s : State) (finalInput : Bool), s.bstate ≠ .bad →
    (2 ^ 32 < s.srcPtr.toNat + s.srcLen.toNat → exec (.inflate finalInput) s = .refused .sourceSpanWraps) ∧
    (s.srcPtr.toNat + s.srcLen.toNat ≤ 2 ^ 32 → 2 ^ 32 < s.dstPtr.toNat + s.dstLen.toNat →
      exec (.inflate finalInput) s = .refused .targetSpanWraps) ∧
    (s.srcPtr.toNat + s.srcLen.toNat ≤ 2 ^ 32 → s.dstPtr.toNat + s.dstLen.toNat ≤ 2 ^ 32 →
      (∃ a, s.srcPtr.toNat ≤ a ∧ a < s.srcPtr.toNat + s.srcLen.toNat ∧ s.dstPtr.toNat ≤ a ∧ a < s.dstPtr.toNat + s.dstLen.toNat) →
      exec (.inflate finalInput) s = .refused .sourceTargetOverlap) ∧
    (2 ^ 32 < s.dictPtr.toNat + s.dictLen.toNat → exec .setDictionary s = .refused .dictSpanWraps) ∧
    (s.dictPtr.toNat + s.dictLen.toNat ≤ 2 ^ 32 →
      (∃ a, s.dictPtr.toNat ≤ a ∧ a < s.dictPtr.toNat + s.dictLen.toNat ∧ s.dstPtr.toNat ≤ a ∧ a < s.dstPtr.toNat + s.dstLen.toNat) →
      exec .setDictionary s = .refused .dictTargetOverlap)

/-- SET_SOURCE and SET_TARGET write their registers and nothing else, in every state (rules R493, R494). -/
def Obligations.SpanWritesComplete : Prop :=
  ∀ (s : State) (v : Word),
    exec (.setSource .ptr v) s = .next { s with srcPtr := v } ∧ exec (.setSource .len v) s = .next { s with srcLen := v } ∧
    exec (.setTarget .ptr v) s = .next { s with dstPtr := v } ∧ exec (.setTarget .len v) s = .next { s with dstLen := v }

/-- Between commands a step takes the host's next action: a command or span write runs its instruction, DICT_PTR and DICT_LEN take a write, every other offset ignores one, a read returns the register of rule R61, an access that is no aligned word is refused, a store changes its byte; and with nothing to do nothing changes (rules R30, R61, R62, R93; log entry 10). -/
def Obligations.HostStepsFollowTheRegisterMap : Prop :=
  ∀ (s : State) (rest : List HostAction), s.inflating = none →
    (∀ (off val : Word) (i : Instr), s.hostQueue = .write off .word val :: rest → off.toNat % 4 = 0 →
      decodeHostWrite off val = some i → step s = exec i { s with hostQueue := rest }) ∧
    (∀ (off val : Word), s.hostQueue = .write off .word val :: rest → off.toNat % 4 = 0 → decodeHostWrite off val = none →
      step s = .next { s with
        hostQueue := rest
        dictPtr := if off = 0x18#32 then val else s.dictPtr
        dictLen := if off = 0x1C#32 then val else s.dictLen }) ∧
    (∀ off : Word, s.hostQueue = .read off .word :: rest → off.toNat % 4 = 0 →
      step s = .next { s with
        hostQueue := rest
        readback :=
          if off = 0x04#32 then resultWord s else if off = 0x08#32 then s.srcPtr else if off = 0x0C#32 then s.srcLen
          else if off = 0x10#32 then s.dstPtr else if off = 0x14#32 then s.dstLen
          else if off = 0x18#32 then s.dictPtr else if off = 0x1C#32 then s.dictLen else 0 }) ∧
    (∀ (off val : Word) (size : AccessSize), off.toNat % 4 ≠ 0 ∨ size ≠ .word →
      (s.hostQueue = .write off size val :: rest ∨ s.hostQueue = .read off size :: rest) →
      step s = .refused .registerAccess) ∧
    (∀ (a : Word) (v : Byte), s.hostQueue = .poke a v :: rest →
      step s = .next { s with hostQueue := rest, mem := Memory.write s.mem a v }) ∧
    (s.hostQueue = [] → step s = .next s)

/-- RESULT: STATUS in bits 1..0, ERR in bits 6..4, every other bit 0; SET_SOURCE and SET_TARGET do not update it (rule R63), and a reserved command changes nothing at all (rules R62, R139; log entry 6). -/
def Obligations.ResultWordFields : Prop :=
  ∀ s : State,
    (resultWord s).extractLsb' 0 2 = s.status.code ∧ (resultWord s).extractLsb' 4 3 = s.err.code ∧
    (∀ j, j ≠ 0 → j ≠ 1 → j ≠ 4 → j ≠ 5 → j ≠ 6 → (resultWord s).getLsbD j = false) ∧
    (∀ (h : SpanHalf) (v : Word) (t : State),
      exec (.setSource h v) s = .next t ∨ exec (.setTarget h v) s = .next t → resultWord t = resultWord s) ∧
    (∀ opc : BitVec 8, exec (.cmdReserved opc) s = .next s)

/-- What the host alone changes: no instruction touches the queue of the host's actions, DICT_PTR, DICT_LEN or the word last read, so the host is served only between commands (rules R59, R93). -/
def Obligations.NoInstructionTouchesTheHostsRegisters : Prop :=
  ∀ (i : Instr) (s t : State), exec i s = .next t →
    t.hostQueue = s.hostQueue ∧ t.dictPtr = s.dictPtr ∧ t.dictLen = s.dictLen ∧ t.readback = s.readback

/-! ## Errors (60_exceptions.md) -/

/-- Error entry (rule R610): `bstate`, `err` and `status`, the command ends, and nothing folds. Every register that rule R611 does not name stays. -/
def Obligations.ErrorEntry : Prop :=
  ∀ (c : ErrCode) (s : State),
    (raise c s).bstate = .bad ∧ (raise c s).err = c ∧ (raise c s).status = .error ∧ (raise c s).inflating = none ∧
    raise c s = { s with
      bstate := .bad, err := c, status := .error, inflating := none
      srcPtr := (raise c s).srcPtr, srcLen := (raise c s).srcLen, dstPtr := (raise c s).dstPtr, dstLen := (raise c s).dstLen
      res := (raise c s).res, bc := (raise c s).bc
      window := (raise c s).window, wEnd := (raise c s).wEnd, wCount := (raise c s).wCount
      mem := (raise c s).mem, draws := s.draws + 1 }

/-- An error leaves every byte outside the rest of the target span, so every byte that was produced before it (rules R89, R611, R612). -/
def Obligations.ErrorKeepsProducedBytes : Prop :=
  ∀ (c : ErrCode) (s : State) (a : Word), Memory.wf s.mem = true → ¬ inTarget s a →
    Memory.read (raise c s).mem a = Memory.read s.mem a

/-- BAD is left only by RESET and keeps its first code: every other step of the host leaves `bstate` and `err`, runs no INFLATE, and writes no byte of memory but one the host itself stores (rules R497, R613, R614). -/
def Obligations.BadIsStickyUntilReset : Prop :=
  ∀ s t : State, s.bstate = .bad → s.inflating = none → step s = .next t →
    (∀ (val : Word) (rest : List HostAction), s.hostQueue = .write 0x00#32 .word val :: rest → val.extractLsb' 0 8 ≠ 0x01#8) →
    t.bstate = .bad ∧ t.err = s.err ∧ t.inflating = none ∧
    ((∀ (a : Word) (v : Byte) (rest : List HostAction), s.hostQueue ≠ .poke a v :: rest) → t.mem = s.mem)

/-! ## The whole machine -/

/-- No instruction stores outside the target span (rules R81, R89), and one that stores nothing and raises nothing, every one but STORED_DATA, leaves every byte. -/
def Obligations.InstructionsStoreOnlyInTheTarget : Prop :=
  ∀ (i : Instr) (s t : State), Memory.wf s.mem = true → exec i s = .next t →
    (∀ a : Word, ¬ inTarget s a → Memory.read t.mem a = Memory.read s.mem a) ∧
    (i ≠ .storedData → t.draws = s.draws → ∀ a : Word, Memory.read t.mem a = Memory.read s.mem a)

/-- No step of a running INFLATE stores outside the target span (rules R81, R89). -/
def Obligations.RunningInflateStoresOnlyInTheTarget : Prop :=
  ∀ (s t : State) (a : Word), Memory.wf s.mem = true → s.inflating ≠ none → step s = .next t → ¬ inTarget s a →
    Memory.read t.mem a = Memory.read s.mem a

/-- Power-on (rules R68, R700): UNINIT, no error, status OK, all spans 0; and INFLATE and SET_DICTIONARY raise BAD_STATE there. -/
def Obligations.PowerOnIsUninit : Prop :=
  State.reset.bstate = .uninit ∧ State.reset.err = .none ∧ State.reset.status = .ok ∧
  State.reset.srcPtr = 0 ∧ State.reset.srcLen = 0 ∧ State.reset.dstPtr = 0 ∧ State.reset.dstLen = 0 ∧
  State.reset.dictPtr = 0 ∧ State.reset.dictLen = 0 ∧
  (∀ f, exec (.inflate f) State.reset = .next (raise .badState State.reset)) ∧
  exec .setDictionary State.reset = .next (raise .badState State.reset)

/-- The invariant holds at power-on (with the values of log entry 1 for what the spec leaves unspecified). -/
def Obligations.ResetMeetsTheInvariant : Prop :=
  Inv State.reset

/-- Every step keeps the storage in range: canonical memories, a clear reservoir above its fill, a window count of at most 32768 (rules R38, R39, R56). -/
def Obligations.StepKeepsTheStorageInRange : Prop :=
  ∀ s t : State, StorageInv s → step s = .next t → StorageInv t

/-- Every step keeps the invariant of the whole machine. -/
def Obligations.StepKeepsTheInvariant : Prop :=
  ∀ s t : State, Inv s → step s = .next t → Inv t

/-- In a state that meets the invariant no step faults, and a running INFLATE always has a next state: every bit pattern is an element or raises an error of rule R134 (rules R135, R246). -/
def Obligations.NoStepFaults : Prop :=
  ∀ s : State, Inv s → (∀ f, step s ≠ .fault f) ∧ (s.inflating ≠ none → ∃ t, step s = .next t)

/-- Every INFLATE ends, within the bound of rule R509 taken at any state of the run. -/
def Obligations.InflateTerminates : Prop :=
  ∀ s : State, Inv s → s.inflating ≠ none →
    ∃ (k : Nat) (t : State), k ≤ 2 * workLeft s + 2 ∧ runFor k s = some t ∧ t.inflating = none
end

