-- ==== Sys2Proof/Laws/Bits.lean ====
section
/-! SUPPORT. The laws of bit strings: lengths, values, and the value of a string followed by more of the stream. -/

namespace Sys2Proof.Machine

@[simp] theorem length_fieldBits (n v : Nat) : (fieldBits n v).length = n := by simp [fieldBits]

@[simp] theorem length_codeBits (k c : Nat) : (codeBits k c).length = k := by simp [codeBits]

theorem bitsVal_lt (bs : List Bool) : bitsVal bs < 2 ^ bs.length := by
  induction bs with
  | nil => simp [bitsVal]
  | cons b bs ih =>
    have hb : b.toNat ≤ 1 := Bool.toNat_le b
    simp only [bitsVal, List.length_cons, pow_succ]
    omega

/-- A string that stands first in the stream is the low part of the value (rule R11). -/
theorem bitsVal_append (bs cs : List Bool) : bitsVal (bs ++ cs) = bitsVal bs + 2 ^ bs.length * bitsVal cs := by
  induction bs with
  | nil => simp [bitsVal]
  | cons b bs ih =>
    simp only [List.cons_append, bitsVal, ih, List.length_cons, pow_succ]
    ring

/-- `field(n)` reads back what was written (rule R11). -/
theorem bitsVal_fieldBits (n v : Nat) : bitsVal (fieldBits n v) = v % 2 ^ n := by
  induction n generalizing v with
  | zero => simp [fieldBits, bitsVal, Nat.mod_one]
  | succ n ih =>
    have e : fieldBits (n + 1) v = v.testBit 0 :: fieldBits n (v / 2) := by
      simp only [fieldBits, List.range_succ_eq_map, List.map_cons, List.map_map]
      congr 1
      apply List.map_congr_left
      intro i _
      simp [Nat.testBit_succ]
    rw [e, bitsVal, ih, pow_succ, Nat.mul_comm (2 ^ n), Nat.mod_mul]
    congr 1
    simp [Nat.testBit_zero, Bool.toNat]
    rcases Nat.mod_two_eq_zero_or_one v with h | h <;> simp [h]

/-- The low bits of the value are those of the string that stands first. -/
theorem bitsVal_append_mod (bs cs : List Bool) : bitsVal (bs ++ cs) % 2 ^ bs.length = bitsVal bs := by
  rw [bitsVal_append, Nat.add_mul_mod_self_left, Nat.mod_eq_of_lt (bitsVal_lt bs)]

/-- Dropping the string that stands first leaves the value of the rest (rule R206). -/
theorem bitsVal_append_div (bs cs : List Bool) : bitsVal (bs ++ cs) / 2 ^ bs.length = bitsVal cs := by
  rw [bitsVal_append, Nat.add_mul_div_left _ _ (by positivity), Nat.div_eq_of_lt (bitsVal_lt bs), Nat.zero_add]

end Sys2Proof.Machine
end

