-- ==== Sys2Proof/Laws/Ram.lean ====
section
/-! SUPPORT. The laws of the one storage form: what is read after a write, and that every operation keeps the canonical form. -/

namespace Sys2Proof.Machine

variable {α : Type}

@[simp] theorem Ram.read_nil (d : α) (i : Nat) : Ram.read d [] i = d := rfl

@[simp] theorem Ram.wf_nil [DecidableEq α] (size : Nat) (d : α) : Ram.wf size d [] = true := rfl

theorem Ram.wfFrom_cons [DecidableEq α] {size : Nat} {d : α} {lo j : Nat} {v : α} {m : Ram α} :
    Ram.wfFrom size d lo ((j, v) :: m) = true ↔
      lo ≤ j ∧ j < size ∧ v ≠ d ∧ Ram.wfFrom size d (j + 1) m = true := by
  simp [Ram.wfFrom, and_assoc]

/-- A canonical form from `hi` on is one from any lower index. -/
theorem Ram.wfFrom_mono [DecidableEq α] {size : Nat} {d : α} {lo hi : Nat} {m : Ram α}
    (h : Ram.wfFrom size d hi m = true) (le : lo ≤ hi) : Ram.wfFrom size d lo m = true := by
  cases m with
  | nil => rfl
  | cons e m =>
    obtain ⟨j, v⟩ := e
    rw [Ram.wfFrom_cons] at h ⊢
    exact ⟨le.trans h.1, h.2⟩

/-- Below its first index a canonical RAM reads as the unlisted value. -/
theorem Ram.read_below [DecidableEq α] {size : Nat} {d : α} {lo i : Nat} {m : Ram α}
    (h : Ram.wfFrom size d lo m = true) (lt : i < lo) : Ram.read d m i = d := by
  cases m with
  | nil => rfl
  | cons e m =>
    obtain ⟨j, v⟩ := e
    rw [Ram.wfFrom_cons] at h
    simp only [Ram.read]
    rw [if_neg (by omega), if_pos (by omega)]

/-- Outside its size a canonical RAM reads as the unlisted value. -/
theorem Ram.read_outside [DecidableEq α] {size : Nat} {d : α} {lo i : Nat} {m : Ram α}
    (h : Ram.wfFrom size d lo m = true) (le : size ≤ i) : Ram.read d m i = d := by
  induction m generalizing lo with
  | nil => rfl
  | cons e m ih =>
    obtain ⟨j, v⟩ := e
    rw [Ram.wfFrom_cons] at h
    simp only [Ram.read]
    rw [if_neg (by omega)]
    split
    · rfl
    · exact ih h.2.2.2

theorem Ram.read_put [DecidableEq α] {size : Nat} {d : α} {lo : Nat} {m : Ram α}
    (h : Ram.wfFrom size d lo m = true) (i : Nat) (v : α) (k : Nat) :
    Ram.read d (Ram.put d i v m) k = if k = i then v else Ram.read d m k := by
  induction m generalizing lo with
  | nil =>
    by_cases hv : v = d
    · simp [Ram.put, hv]
    · simp only [Ram.put, hv, if_false, Ram.read]
      split
      · rfl
      · split <;> rfl
  | cons e m ih =>
    obtain ⟨j, w⟩ := e
    rw [Ram.wfFrom_cons] at h
    have below : ∀ k, k < j + 1 → Ram.read d m k = d := fun k hk => Ram.read_below h.2.2.2 hk
    simp only [Ram.put]
    split
    · rename_i hij
      by_cases hv : v = d
      · subst hv
        by_cases hk : k = i
        · subst hk
          simp only [if_true, Ram.read]
          rw [if_neg (by omega), if_pos hij]
        · simp [hk]
      · simp only [hv, if_false, Ram.read]
        by_cases hk : k = i
        · simp [hk]
        · simp only [hk, if_false]
          split
          · rw [if_neg (by omega), if_pos (by omega)]
          · rfl
    · split
      · rename_i _ hij
        subst hij
        by_cases hv : v = d
        · subst hv
          simp only [if_true, Ram.read]
          by_cases hk : k = i
          · subst hk
            simp [below k (by omega)]
          · simp only [hk, if_false]
            split
            · exact below k (by omega)
            · rfl
        · simp only [hv, if_false, Ram.read]
          by_cases hk : k = i
          · simp [hk]
          · simp [hk]
      · simp only [Ram.read]
        rw [ih h.2.2.2]
        by_cases hk : k = i
        · subst hk
          rw [if_neg (by omega), if_neg (by omega)]
          simp
        · simp [hk]

theorem Ram.wfFrom_put [DecidableEq α] {size : Nat} {d : α} {lo : Nat} {m : Ram α}
    (h : Ram.wfFrom size d lo m = true) {i : Nat} (hlo : lo ≤ i) (hi : i < size) (v : α) :
    Ram.wfFrom size d lo (Ram.put d i v m) = true := by
  induction m generalizing lo with
  | nil =>
    by_cases hv : v = d
    · simp [Ram.put, hv, Ram.wfFrom]
    · simp [Ram.put, hv, Ram.wfFrom, hlo, hi]
  | cons e m ih =>
    obtain ⟨j, w⟩ := e
    have h' := h
    rw [Ram.wfFrom_cons] at h
    simp only [Ram.put]
    split
    · rename_i hij
      split
      · exact h'
      · rename_i hv
        rw [Ram.wfFrom_cons]
        refine ⟨hlo, hi, hv, ?_⟩
        rw [Ram.wfFrom_cons]
        exact ⟨by omega, h.2⟩
    · split
      · rename_i _ hij
        subst hij
        split
        · exact Ram.wfFrom_mono h.2.2.2 (by omega)
        · rename_i hv
          rw [Ram.wfFrom_cons]
          exact ⟨hlo, hi, hv, h.2.2.2⟩
      · rw [Ram.wfFrom_cons]
        exact ⟨h.1, h.2.1, h.2.2.1, ih h.2.2.2 (by omega)⟩

/-- A write keeps the canonical form. -/
theorem Ram.wf_write [DecidableEq α] {size : Nat} {d : α} {m : Ram α}
    (h : Ram.wf size d m = true) (i : Nat) (v : α) : Ram.wf size d (Ram.write size d i v m) = true := by
  unfold Ram.write
  split
  · exact Ram.wfFrom_put h (Nat.zero_le i) ‹_› v
  · exact h

/-- What is read after a write. -/
theorem Ram.read_write [DecidableEq α] {size : Nat} {d : α} {m : Ram α}
    (h : Ram.wf size d m = true) (i : Nat) (v : α) (k : Nat) :
    Ram.read d (Ram.write size d i v m) k = if k = i ∧ i < size then v else Ram.read d m k := by
  unfold Ram.write
  split
  · rename_i hi
    rw [Ram.read_put h]
    by_cases hk : k = i <;> simp [hk, hi]
  · rename_i hi
    rw [if_neg (by simp [hi])]

/-- Canonical RAMs that read alike are equal. -/
theorem Ram.ext_of_read [DecidableEq α] {size : Nat} {d : α} {lo : Nat} {m n : Ram α}
    (hm : Ram.wfFrom size d lo m = true) (hn : Ram.wfFrom size d lo n = true)
    (h : ∀ i, Ram.read d m i = Ram.read d n i) : m = n := by
  induction m generalizing lo n with
  | nil =>
    cases n with
    | nil => rfl
    | cons e n =>
      obtain ⟨j, v⟩ := e
      have := h j
      rw [Ram.wfFrom_cons] at hn
      simp [Ram.read] at this
      exact absurd this.symm hn.2.2.1
  | cons e m ih =>
    obtain ⟨j, v⟩ := e
    cases n with
    | nil =>
      have := h j
      rw [Ram.wfFrom_cons] at hm
      simp [Ram.read] at this
      exact absurd this hm.2.2.1
    | cons f n =>
      obtain ⟨k, w⟩ := f
      rw [Ram.wfFrom_cons] at hm hn
      have hjk : j = k := by
        rcases Nat.lt_trichotomy j k with hlt | heq | hgt
        · have := h j
          simp only [Ram.read, if_true] at this
          rw [if_neg (by omega), if_pos hlt] at this
          exact absurd this hm.2.2.1
        · exact heq
        · have := h k
          simp only [Ram.read, if_true] at this
          rw [if_neg (by omega), if_pos hgt] at this
          exact absurd this.symm hn.2.2.1
      subst hjk
      have hvw : v = w := by simpa [Ram.read] using h j
      subst hvw
      congr 1
      refine ih hm.2.2.2 hn.2.2.2 fun i => ?_
      by_cases hij : i < j + 1
      · rw [Ram.read_below hm.2.2.2 hij, Ram.read_below hn.2.2.2 hij]
      · have := h i
        simp only [Ram.read] at this
        rwa [if_neg (by omega), if_neg (by omega), if_neg (by omega), if_neg (by omega)] at this

/-- The entries of `f` from index `lo` on, `n` of them. -/
theorem Ram.ofFn_range' [DecidableEq α] {size : Nat} {d : α} (f : Nat → α) (n lo : Nat) (h : lo + n ≤ size) :
    Ram.wfFrom size d lo ((List.range' lo n).filterMap fun i => if f i = d then none else some (i, f i)) = true ∧
      ∀ k, Ram.read d ((List.range' lo n).filterMap fun i => if f i = d then none else some (i, f i)) k =
        if lo ≤ k ∧ k < lo + n then f k else d := by
  induction n generalizing lo with
  | zero =>
    refine ⟨rfl, fun k => ?_⟩
    simp
  | succ n ih =>
    obtain ⟨hw, hr⟩ := ih (lo + 1) (by omega)
    rw [List.range'_succ]
    by_cases hf : f lo = d
    · simp only [List.filterMap_cons, hf, if_true]
      refine ⟨Ram.wfFrom_mono hw (by omega), fun k => ?_⟩
      rw [hr]
      by_cases hk : k = lo
      · subst hk
        rw [if_neg (by omega), if_pos (by omega), hf]
      · by_cases hb : lo + 1 ≤ k ∧ k < lo + 1 + n
        · rw [if_pos hb, if_pos (by omega)]
        · rw [if_neg hb, if_neg (by omega)]
    · simp only [List.filterMap_cons, hf, if_false]
      refine ⟨?_, fun k => ?_⟩
      · rw [Ram.wfFrom_cons]
        exact ⟨le_refl _, by omega, hf, hw⟩
      · simp only [Ram.read]
        rw [hr]
        by_cases hk : k = lo
        · subst hk
          rw [if_pos rfl, if_pos (by omega)]
        · rw [if_neg hk]
          by_cases hl : k < lo
          · rw [if_pos hl, if_neg (by omega)]
          · rw [if_neg hl]
            by_cases hb : lo + 1 ≤ k ∧ k < lo + 1 + n
            · rw [if_pos hb, if_pos (by omega)]
            · rw [if_neg hb, if_neg (by omega)]

/-- A RAM given by a function is in canonical form. -/
theorem Ram.wf_ofFn [DecidableEq α] (size : Nat) (d : α) (f : Nat → α) : Ram.wf size d (Ram.ofFn size d f) = true := by
  have := (Ram.ofFn_range' (size := size) (d := d) f size 0 (by omega)).1
  rwa [← List.range_eq_range'] at this

/-- A RAM given by a function reads as that function. -/
theorem Ram.read_ofFn [DecidableEq α] (size : Nat) (d : α) (f : Nat → α) (k : Nat) :
    Ram.read d (Ram.ofFn size d f) k = if k < size then f k else d := by
  have := (Ram.ofFn_range' (size := size) (d := d) f size 0 (by omega)).2 k
  rw [← List.range_eq_range'] at this
  simpa [Ram.ofFn] using this

/-! ## Host memory -/

theorem Memory.wf_write {m : Memory} (h : Memory.wf m = true) (a : Word) (v : Byte) :
    Memory.wf (Memory.write m a v) = true :=
  Ram.wf_write h _ _

/-- What one byte of host memory reads as after a write of one byte. -/
theorem Memory.read_write {m : Memory} (h : Memory.wf m = true) (a : Word) (v : Byte) (b : Word) :
    Memory.read (Memory.write m a v) b = if b = a then v else Memory.read m b := by
  unfold Memory.read Memory.write
  rw [Ram.read_write h]
  have ha : a.toNat < Config.memSize := a.isLt
  by_cases hb : b = a
  · simp [hb, ha]
  · rw [if_neg (by simpa [← BitVec.toNat_inj] using fun h => absurd (BitVec.toNat_inj.mp h) hb), if_neg hb]

/-- Memories in canonical form that read alike are equal. -/
theorem Memory.ext_of_read {m n : Memory} (hm : Memory.wf m = true) (hn : Memory.wf n = true)
    (h : ∀ a : Word, Memory.read m a = Memory.read n a) : m = n := by
  refine Ram.ext_of_read hm hn fun i => ?_
  by_cases hi : i < Config.memSize
  · have := h (BitVec.ofNat 32 i)
    simpa [Memory.read, Nat.mod_eq_of_lt (show i < 4294967296 from hi)] using this
  · rw [Ram.read_outside hm (by omega), Ram.read_outside hn (by omega)]

end Sys2Proof.Machine
end

