-- ==== Sys2Proof/Laws/State.lean ====
section
/-! SUPPORT. What each named update does to each field of State: one lemma per field per update, so that no proof unfolds a record update. -/

namespace Sys2Proof.Machine

/-! ## `drop`. Rule R206. -/

@[simp] theorem drop_bstate (n : Nat) (s : State) : (drop n s).bstate = s.bstate := rfl
@[simp] theorem drop_bfinal (n : Nat) (s : State) : (drop n s).bfinal = s.bfinal := rfl
@[simp] theorem drop_err (n : Nat) (s : State) : (drop n s).err = s.err := rfl
@[simp] theorem drop_status (n : Nat) (s : State) : (drop n s).status = s.status := rfl
@[simp] theorem drop_consumedAny (n : Nat) (s : State) : (drop n s).consumedAny = s.consumedAny := rfl
@[simp] theorem drop_res (n : Nat) (s : State) : (drop n s).res = s.res >>> n := rfl
@[simp] theorem drop_bc (n : Nat) (s : State) : (drop n s).bc = s.bc - BitVec.ofNat 7 n := rfl
@[simp] theorem drop_sphase (n : Nat) (s : State) : (drop n s).sphase = s.sphase := rfl
@[simp] theorem drop_srem (n : Nat) (s : State) : (drop n s).srem = s.srem := rfl
@[simp] theorem drop_dphase (n : Nat) (s : State) : (drop n s).dphase = s.dphase := rfl
@[simp] theorem drop_hlit (n : Nat) (s : State) : (drop n s).hlit = s.hlit := rfl
@[simp] theorem drop_hdist (n : Nat) (s : State) : (drop n s).hdist = s.hdist := rfl
@[simp] theorem drop_hclen (n : Nat) (s : State) : (drop n s).hclen = s.hclen := rfl
@[simp] theorem drop_idx (n : Nat) (s : State) : (drop n s).idx = s.idx := rfl
@[simp] theorem drop_dsym (n : Nat) (s : State) : (drop n s).dsym = s.dsym := rfl
@[simp] theorem drop_clens (n : Nat) (s : State) : (drop n s).clens = s.clens := rfl
@[simp] theorem drop_lens (n : Nat) (s : State) : (drop n s).lens = s.lens := rfl
@[simp] theorem drop_sub (n : Nat) (s : State) : (drop n s).sub = s.sub := rfl
@[simp] theorem drop_litPending (n : Nat) (s : State) : (drop n s).litPending = s.litPending := rfl
@[simp] theorem drop_auxLen (n : Nat) (s : State) : (drop n s).auxLen = s.auxLen := rfl
@[simp] theorem drop_auxExtra (n : Nat) (s : State) : (drop n s).auxExtra = s.auxExtra := rfl
@[simp] theorem drop_auxDist (n : Nat) (s : State) : (drop n s).auxDist = s.auxDist := rfl
@[simp] theorem drop_tsel (n : Nat) (s : State) : (drop n s).tsel = s.tsel := rfl
@[simp] theorem drop_lt (n : Nat) (s : State) : (drop n s).lt = s.lt := rfl
@[simp] theorem drop_dt (n : Nat) (s : State) : (drop n s).dt = s.dt := rfl
@[simp] theorem drop_ct (n : Nat) (s : State) : (drop n s).ct = s.ct := rfl
@[simp] theorem drop_window (n : Nat) (s : State) : (drop n s).window = s.window := rfl
@[simp] theorem drop_wEnd (n : Nat) (s : State) : (drop n s).wEnd = s.wEnd := rfl
@[simp] theorem drop_wCount (n : Nat) (s : State) : (drop n s).wCount = s.wCount := rfl
@[simp] theorem drop_srcPtr (n : Nat) (s : State) : (drop n s).srcPtr = s.srcPtr := rfl
@[simp] theorem drop_srcLen (n : Nat) (s : State) : (drop n s).srcLen = s.srcLen := rfl
@[simp] theorem drop_dstPtr (n : Nat) (s : State) : (drop n s).dstPtr = s.dstPtr := rfl
@[simp] theorem drop_dstLen (n : Nat) (s : State) : (drop n s).dstLen = s.dstLen := rfl
@[simp] theorem drop_dictPtr (n : Nat) (s : State) : (drop n s).dictPtr = s.dictPtr := rfl
@[simp] theorem drop_dictLen (n : Nat) (s : State) : (drop n s).dictLen = s.dictLen := rfl
@[simp] theorem drop_tbegin (n : Nat) (s : State) : (drop n s).tbegin = s.tbegin := rfl
@[simp] theorem drop_mem (n : Nat) (s : State) : (drop n s).mem = s.mem := rfl
@[simp] theorem drop_inflating (n : Nat) (s : State) : (drop n s).inflating = s.inflating := rfl
@[simp] theorem drop_hostQueue (n : Nat) (s : State) : (drop n s).hostQueue = s.hostQueue := rfl
@[simp] theorem drop_readback (n : Nat) (s : State) : (drop n s).readback = s.readback := rfl
@[simp] theorem drop_draws (n : Nat) (s : State) : (drop n s).draws = s.draws := rfl

/-! ## `advanceSource`. Rule R203. -/

@[simp] theorem advanceSource_bstate (s : State) : (advanceSource s).bstate = s.bstate := rfl
@[simp] theorem advanceSource_bfinal (s : State) : (advanceSource s).bfinal = s.bfinal := rfl
@[simp] theorem advanceSource_err (s : State) : (advanceSource s).err = s.err := rfl
@[simp] theorem advanceSource_status (s : State) : (advanceSource s).status = s.status := rfl
@[simp] theorem advanceSource_consumedAny (s : State) : (advanceSource s).consumedAny = true := rfl
@[simp] theorem advanceSource_res (s : State) : (advanceSource s).res = s.res := rfl
@[simp] theorem advanceSource_bc (s : State) : (advanceSource s).bc = s.bc := rfl
@[simp] theorem advanceSource_sphase (s : State) : (advanceSource s).sphase = s.sphase := rfl
@[simp] theorem advanceSource_srem (s : State) : (advanceSource s).srem = s.srem := rfl
@[simp] theorem advanceSource_dphase (s : State) : (advanceSource s).dphase = s.dphase := rfl
@[simp] theorem advanceSource_hlit (s : State) : (advanceSource s).hlit = s.hlit := rfl
@[simp] theorem advanceSource_hdist (s : State) : (advanceSource s).hdist = s.hdist := rfl
@[simp] theorem advanceSource_hclen (s : State) : (advanceSource s).hclen = s.hclen := rfl
@[simp] theorem advanceSource_idx (s : State) : (advanceSource s).idx = s.idx := rfl
@[simp] theorem advanceSource_dsym (s : State) : (advanceSource s).dsym = s.dsym := rfl
@[simp] theorem advanceSource_clens (s : State) : (advanceSource s).clens = s.clens := rfl
@[simp] theorem advanceSource_lens (s : State) : (advanceSource s).lens = s.lens := rfl
@[simp] theorem advanceSource_sub (s : State) : (advanceSource s).sub = s.sub := rfl
@[simp] theorem advanceSource_litPending (s : State) : (advanceSource s).litPending = s.litPending := rfl
@[simp] theorem advanceSource_auxLen (s : State) : (advanceSource s).auxLen = s.auxLen := rfl
@[simp] theorem advanceSource_auxExtra (s : State) : (advanceSource s).auxExtra = s.auxExtra := rfl
@[simp] theorem advanceSource_auxDist (s : State) : (advanceSource s).auxDist = s.auxDist := rfl
@[simp] theorem advanceSource_tsel (s : State) : (advanceSource s).tsel = s.tsel := rfl
@[simp] theorem advanceSource_lt (s : State) : (advanceSource s).lt = s.lt := rfl
@[simp] theorem advanceSource_dt (s : State) : (advanceSource s).dt = s.dt := rfl
@[simp] theorem advanceSource_ct (s : State) : (advanceSource s).ct = s.ct := rfl
@[simp] theorem advanceSource_window (s : State) : (advanceSource s).window = s.window := rfl
@[simp] theorem advanceSource_wEnd (s : State) : (advanceSource s).wEnd = s.wEnd := rfl
@[simp] theorem advanceSource_wCount (s : State) : (advanceSource s).wCount = s.wCount := rfl
@[simp] theorem advanceSource_srcPtr (s : State) : (advanceSource s).srcPtr = s.srcPtr + 1 := rfl
@[simp] theorem advanceSource_srcLen (s : State) : (advanceSource s).srcLen = s.srcLen - 1 := rfl
@[simp] theorem advanceSource_dstPtr (s : State) : (advanceSource s).dstPtr = s.dstPtr := rfl
@[simp] theorem advanceSource_dstLen (s : State) : (advanceSource s).dstLen = s.dstLen := rfl
@[simp] theorem advanceSource_dictPtr (s : State) : (advanceSource s).dictPtr = s.dictPtr := rfl
@[simp] theorem advanceSource_dictLen (s : State) : (advanceSource s).dictLen = s.dictLen := rfl
@[simp] theorem advanceSource_tbegin (s : State) : (advanceSource s).tbegin = s.tbegin := rfl
@[simp] theorem advanceSource_mem (s : State) : (advanceSource s).mem = s.mem := rfl
@[simp] theorem advanceSource_inflating (s : State) : (advanceSource s).inflating = s.inflating := rfl
@[simp] theorem advanceSource_hostQueue (s : State) : (advanceSource s).hostQueue = s.hostQueue := rfl
@[simp] theorem advanceSource_readback (s : State) : (advanceSource s).readback = s.readback := rfl
@[simp] theorem advanceSource_draws (s : State) : (advanceSource s).draws = s.draws := rfl

/-! ## `takeByte`. Rule R202. -/

@[simp] theorem takeByte_bstate (s : State) : (takeByte s).bstate = s.bstate := rfl
@[simp] theorem takeByte_bfinal (s : State) : (takeByte s).bfinal = s.bfinal := rfl
@[simp] theorem takeByte_err (s : State) : (takeByte s).err = s.err := rfl
@[simp] theorem takeByte_status (s : State) : (takeByte s).status = s.status := rfl
@[simp] theorem takeByte_consumedAny (s : State) : (takeByte s).consumedAny = true := rfl
@[simp] theorem takeByte_res (s : State) : (takeByte s).res = s.res ||| ((sourceByte s).setWidth 64 <<< s.bc.toNat) := rfl
@[simp] theorem takeByte_bc (s : State) : (takeByte s).bc = s.bc + 8 := rfl
@[simp] theorem takeByte_sphase (s : State) : (takeByte s).sphase = s.sphase := rfl
@[simp] theorem takeByte_srem (s : State) : (takeByte s).srem = s.srem := rfl
@[simp] theorem takeByte_dphase (s : State) : (takeByte s).dphase = s.dphase := rfl
@[simp] theorem takeByte_hlit (s : State) : (takeByte s).hlit = s.hlit := rfl
@[simp] theorem takeByte_hdist (s : State) : (takeByte s).hdist = s.hdist := rfl
@[simp] theorem takeByte_hclen (s : State) : (takeByte s).hclen = s.hclen := rfl
@[simp] theorem takeByte_idx (s : State) : (takeByte s).idx = s.idx := rfl
@[simp] theorem takeByte_dsym (s : State) : (takeByte s).dsym = s.dsym := rfl
@[simp] theorem takeByte_clens (s : State) : (takeByte s).clens = s.clens := rfl
@[simp] theorem takeByte_lens (s : State) : (takeByte s).lens = s.lens := rfl
@[simp] theorem takeByte_sub (s : State) : (takeByte s).sub = s.sub := rfl
@[simp] theorem takeByte_litPending (s : State) : (takeByte s).litPending = s.litPending := rfl
@[simp] theorem takeByte_auxLen (s : State) : (takeByte s).auxLen = s.auxLen := rfl
@[simp] theorem takeByte_auxExtra (s : State) : (takeByte s).auxExtra = s.auxExtra := rfl
@[simp] theorem takeByte_auxDist (s : State) : (takeByte s).auxDist = s.auxDist := rfl
@[simp] theorem takeByte_tsel (s : State) : (takeByte s).tsel = s.tsel := rfl
@[simp] theorem takeByte_lt (s : State) : (takeByte s).lt = s.lt := rfl
@[simp] theorem takeByte_dt (s : State) : (takeByte s).dt = s.dt := rfl
@[simp] theorem takeByte_ct (s : State) : (takeByte s).ct = s.ct := rfl
@[simp] theorem takeByte_window (s : State) : (takeByte s).window = s.window := rfl
@[simp] theorem takeByte_wEnd (s : State) : (takeByte s).wEnd = s.wEnd := rfl
@[simp] theorem takeByte_wCount (s : State) : (takeByte s).wCount = s.wCount := rfl
@[simp] theorem takeByte_srcPtr (s : State) : (takeByte s).srcPtr = s.srcPtr + 1 := rfl
@[simp] theorem takeByte_srcLen (s : State) : (takeByte s).srcLen = s.srcLen - 1 := rfl
@[simp] theorem takeByte_dstPtr (s : State) : (takeByte s).dstPtr = s.dstPtr := rfl
@[simp] theorem takeByte_dstLen (s : State) : (takeByte s).dstLen = s.dstLen := rfl
@[simp] theorem takeByte_dictPtr (s : State) : (takeByte s).dictPtr = s.dictPtr := rfl
@[simp] theorem takeByte_dictLen (s : State) : (takeByte s).dictLen = s.dictLen := rfl
@[simp] theorem takeByte_tbegin (s : State) : (takeByte s).tbegin = s.tbegin := rfl
@[simp] theorem takeByte_mem (s : State) : (takeByte s).mem = s.mem := rfl
@[simp] theorem takeByte_inflating (s : State) : (takeByte s).inflating = s.inflating := rfl
@[simp] theorem takeByte_hostQueue (s : State) : (takeByte s).hostQueue = s.hostQueue := rfl
@[simp] theorem takeByte_readback (s : State) : (takeByte s).readback = s.readback := rfl
@[simp] theorem takeByte_draws (s : State) : (takeByte s).draws = s.draws := rfl

/-! ## `storeByte`. Rule R88. -/

@[simp] theorem storeByte_bstate (v : Byte) (s : State) : (storeByte v s).bstate = s.bstate := rfl
@[simp] theorem storeByte_bfinal (v : Byte) (s : State) : (storeByte v s).bfinal = s.bfinal := rfl
@[simp] theorem storeByte_err (v : Byte) (s : State) : (storeByte v s).err = s.err := rfl
@[simp] theorem storeByte_status (v : Byte) (s : State) : (storeByte v s).status = s.status := rfl
@[simp] theorem storeByte_consumedAny (v : Byte) (s : State) : (storeByte v s).consumedAny = s.consumedAny := rfl
@[simp] theorem storeByte_res (v : Byte) (s : State) : (storeByte v s).res = s.res := rfl
@[simp] theorem storeByte_bc (v : Byte) (s : State) : (storeByte v s).bc = s.bc := rfl
@[simp] theorem storeByte_sphase (v : Byte) (s : State) : (storeByte v s).sphase = s.sphase := rfl
@[simp] theorem storeByte_srem (v : Byte) (s : State) : (storeByte v s).srem = s.srem := rfl
@[simp] theorem storeByte_dphase (v : Byte) (s : State) : (storeByte v s).dphase = s.dphase := rfl
@[simp] theorem storeByte_hlit (v : Byte) (s : State) : (storeByte v s).hlit = s.hlit := rfl
@[simp] theorem storeByte_hdist (v : Byte) (s : State) : (storeByte v s).hdist = s.hdist := rfl
@[simp] theorem storeByte_hclen (v : Byte) (s : State) : (storeByte v s).hclen = s.hclen := rfl
@[simp] theorem storeByte_idx (v : Byte) (s : State) : (storeByte v s).idx = s.idx := rfl
@[simp] theorem storeByte_dsym (v : Byte) (s : State) : (storeByte v s).dsym = s.dsym := rfl
@[simp] theorem storeByte_clens (v : Byte) (s : State) : (storeByte v s).clens = s.clens := rfl
@[simp] theorem storeByte_lens (v : Byte) (s : State) : (storeByte v s).lens = s.lens := rfl
@[simp] theorem storeByte_sub (v : Byte) (s : State) : (storeByte v s).sub = s.sub := rfl
@[simp] theorem storeByte_litPending (v : Byte) (s : State) : (storeByte v s).litPending = s.litPending := rfl
@[simp] theorem storeByte_auxLen (v : Byte) (s : State) : (storeByte v s).auxLen = s.auxLen := rfl
@[simp] theorem storeByte_auxExtra (v : Byte) (s : State) : (storeByte v s).auxExtra = s.auxExtra := rfl
@[simp] theorem storeByte_auxDist (v : Byte) (s : State) : (storeByte v s).auxDist = s.auxDist := rfl
@[simp] theorem storeByte_tsel (v : Byte) (s : State) : (storeByte v s).tsel = s.tsel := rfl
@[simp] theorem storeByte_lt (v : Byte) (s : State) : (storeByte v s).lt = s.lt := rfl
@[simp] theorem storeByte_dt (v : Byte) (s : State) : (storeByte v s).dt = s.dt := rfl
@[simp] theorem storeByte_ct (v : Byte) (s : State) : (storeByte v s).ct = s.ct := rfl
@[simp] theorem storeByte_window (v : Byte) (s : State) : (storeByte v s).window = s.window := rfl
@[simp] theorem storeByte_wEnd (v : Byte) (s : State) : (storeByte v s).wEnd = s.wEnd := rfl
@[simp] theorem storeByte_wCount (v : Byte) (s : State) : (storeByte v s).wCount = s.wCount := rfl
@[simp] theorem storeByte_srcPtr (v : Byte) (s : State) : (storeByte v s).srcPtr = s.srcPtr := rfl
@[simp] theorem storeByte_srcLen (v : Byte) (s : State) : (storeByte v s).srcLen = s.srcLen := rfl
@[simp] theorem storeByte_dstPtr (v : Byte) (s : State) : (storeByte v s).dstPtr = s.dstPtr + 1 := rfl
@[simp] theorem storeByte_dstLen (v : Byte) (s : State) : (storeByte v s).dstLen = s.dstLen - 1 := rfl
@[simp] theorem storeByte_dictPtr (v : Byte) (s : State) : (storeByte v s).dictPtr = s.dictPtr := rfl
@[simp] theorem storeByte_dictLen (v : Byte) (s : State) : (storeByte v s).dictLen = s.dictLen := rfl
@[simp] theorem storeByte_tbegin (v : Byte) (s : State) : (storeByte v s).tbegin = s.tbegin := rfl
@[simp] theorem storeByte_mem (v : Byte) (s : State) : (storeByte v s).mem = Memory.write s.mem s.dstPtr v := rfl
@[simp] theorem storeByte_inflating (v : Byte) (s : State) : (storeByte v s).inflating = s.inflating := rfl
@[simp] theorem storeByte_hostQueue (v : Byte) (s : State) : (storeByte v s).hostQueue = s.hostQueue := rfl
@[simp] theorem storeByte_readback (v : Byte) (s : State) : (storeByte v s).readback = s.readback := rfl
@[simp] theorem storeByte_draws (v : Byte) (s : State) : (storeByte v s).draws = s.draws := rfl

/-! ## `setWindow`. Rule R55. -/

@[simp] theorem setWindow_bstate (i : BitVec 15) (v : Byte) (s : State) : (setWindow i v s).bstate = s.bstate := rfl
@[simp] theorem setWindow_bfinal (i : BitVec 15) (v : Byte) (s : State) : (setWindow i v s).bfinal = s.bfinal := rfl
@[simp] theorem setWindow_err (i : BitVec 15) (v : Byte) (s : State) : (setWindow i v s).err = s.err := rfl
@[simp] theorem setWindow_status (i : BitVec 15) (v : Byte) (s : State) : (setWindow i v s).status = s.status := rfl
@[simp] theorem setWindow_consumedAny (i : BitVec 15) (v : Byte) (s : State) : (setWindow i v s).consumedAny = s.consumedAny := rfl
@[simp] theorem setWindow_res (i : BitVec 15) (v : Byte) (s : State) : (setWindow i v s).res = s.res := rfl
@[simp] theorem setWindow_bc (i : BitVec 15) (v : Byte) (s : State) : (setWindow i v s).bc = s.bc := rfl
@[simp] theorem setWindow_sphase (i : BitVec 15) (v : Byte) (s : State) : (setWindow i v s).sphase = s.sphase := rfl
@[simp] theorem setWindow_srem (i : BitVec 15) (v : Byte) (s : State) : (setWindow i v s).srem = s.srem := rfl
@[simp] theorem setWindow_dphase (i : BitVec 15) (v : Byte) (s : State) : (setWindow i v s).dphase = s.dphase := rfl
@[simp] theorem setWindow_hlit (i : BitVec 15) (v : Byte) (s : State) : (setWindow i v s).hlit = s.hlit := rfl
@[simp] theorem setWindow_hdist (i : BitVec 15) (v : Byte) (s : State) : (setWindow i v s).hdist = s.hdist := rfl
@[simp] theorem setWindow_hclen (i : BitVec 15) (v : Byte) (s : State) : (setWindow i v s).hclen = s.hclen := rfl
@[simp] theorem setWindow_idx (i : BitVec 15) (v : Byte) (s : State) : (setWindow i v s).idx = s.idx := rfl
@[simp] theorem setWindow_dsym (i : BitVec 15) (v : Byte) (s : State) : (setWindow i v s).dsym = s.dsym := rfl
@[simp] theorem setWindow_clens (i : BitVec 15) (v : Byte) (s : State) : (setWindow i v s).clens = s.clens := rfl
@[simp] theorem setWindow_lens (i : BitVec 15) (v : Byte) (s : State) : (setWindow i v s).lens = s.lens := rfl
@[simp] theorem setWindow_sub (i : BitVec 15) (v : Byte) (s : State) : (setWindow i v s).sub = s.sub := rfl
@[simp] theorem setWindow_litPending (i : BitVec 15) (v : Byte) (s : State) : (setWindow i v s).litPending = s.litPending := rfl
@[simp] theorem setWindow_auxLen (i : BitVec 15) (v : Byte) (s : State) : (setWindow i v s).auxLen = s.auxLen := rfl
@[simp] theorem setWindow_auxExtra (i : BitVec 15) (v : Byte) (s : State) : (setWindow i v s).auxExtra = s.auxExtra := rfl
@[simp] theorem setWindow_auxDist (i : BitVec 15) (v : Byte) (s : State) : (setWindow i v s).auxDist = s.auxDist := rfl
@[simp] theorem setWindow_tsel (i : BitVec 15) (v : Byte) (s : State) : (setWindow i v s).tsel = s.tsel := rfl
@[simp] theorem setWindow_lt (i : BitVec 15) (v : Byte) (s : State) : (setWindow i v s).lt = s.lt := rfl
@[simp] theorem setWindow_dt (i : BitVec 15) (v : Byte) (s : State) : (setWindow i v s).dt = s.dt := rfl
@[simp] theorem setWindow_ct (i : BitVec 15) (v : Byte) (s : State) : (setWindow i v s).ct = s.ct := rfl
@[simp] theorem setWindow_window (i : BitVec 15) (v : Byte) (s : State) : (setWindow i v s).window = Ram.write Config.wsize 0 i.toNat v s.window := rfl
@[simp] theorem setWindow_wEnd (i : BitVec 15) (v : Byte) (s : State) : (setWindow i v s).wEnd = s.wEnd := rfl
@[simp] theorem setWindow_wCount (i : BitVec 15) (v : Byte) (s : State) : (setWindow i v s).wCount = s.wCount := rfl
@[simp] theorem setWindow_srcPtr (i : BitVec 15) (v : Byte) (s : State) : (setWindow i v s).srcPtr = s.srcPtr := rfl
@[simp] theorem setWindow_srcLen (i : BitVec 15) (v : Byte) (s : State) : (setWindow i v s).srcLen = s.srcLen := rfl
@[simp] theorem setWindow_dstPtr (i : BitVec 15) (v : Byte) (s : State) : (setWindow i v s).dstPtr = s.dstPtr := rfl
@[simp] theorem setWindow_dstLen (i : BitVec 15) (v : Byte) (s : State) : (setWindow i v s).dstLen = s.dstLen := rfl
@[simp] theorem setWindow_dictPtr (i : BitVec 15) (v : Byte) (s : State) : (setWindow i v s).dictPtr = s.dictPtr := rfl
@[simp] theorem setWindow_dictLen (i : BitVec 15) (v : Byte) (s : State) : (setWindow i v s).dictLen = s.dictLen := rfl
@[simp] theorem setWindow_tbegin (i : BitVec 15) (v : Byte) (s : State) : (setWindow i v s).tbegin = s.tbegin := rfl
@[simp] theorem setWindow_mem (i : BitVec 15) (v : Byte) (s : State) : (setWindow i v s).mem = s.mem := rfl
@[simp] theorem setWindow_inflating (i : BitVec 15) (v : Byte) (s : State) : (setWindow i v s).inflating = s.inflating := rfl
@[simp] theorem setWindow_hostQueue (i : BitVec 15) (v : Byte) (s : State) : (setWindow i v s).hostQueue = s.hostQueue := rfl
@[simp] theorem setWindow_readback (i : BitVec 15) (v : Byte) (s : State) : (setWindow i v s).readback = s.readback := rfl
@[simp] theorem setWindow_draws (i : BitVec 15) (v : Byte) (s : State) : (setWindow i v s).draws = s.draws := rfl

/-! ## `setClen`. Rule R42. -/

@[simp] theorem setClen_bstate (i : Nat) (v : BitVec 3) (s : State) : (setClen i v s).bstate = s.bstate := rfl
@[simp] theorem setClen_bfinal (i : Nat) (v : BitVec 3) (s : State) : (setClen i v s).bfinal = s.bfinal := rfl
@[simp] theorem setClen_err (i : Nat) (v : BitVec 3) (s : State) : (setClen i v s).err = s.err := rfl
@[simp] theorem setClen_status (i : Nat) (v : BitVec 3) (s : State) : (setClen i v s).status = s.status := rfl
@[simp] theorem setClen_consumedAny (i : Nat) (v : BitVec 3) (s : State) : (setClen i v s).consumedAny = s.consumedAny := rfl
@[simp] theorem setClen_res (i : Nat) (v : BitVec 3) (s : State) : (setClen i v s).res = s.res := rfl
@[simp] theorem setClen_bc (i : Nat) (v : BitVec 3) (s : State) : (setClen i v s).bc = s.bc := rfl
@[simp] theorem setClen_sphase (i : Nat) (v : BitVec 3) (s : State) : (setClen i v s).sphase = s.sphase := rfl
@[simp] theorem setClen_srem (i : Nat) (v : BitVec 3) (s : State) : (setClen i v s).srem = s.srem := rfl
@[simp] theorem setClen_dphase (i : Nat) (v : BitVec 3) (s : State) : (setClen i v s).dphase = s.dphase := rfl
@[simp] theorem setClen_hlit (i : Nat) (v : BitVec 3) (s : State) : (setClen i v s).hlit = s.hlit := rfl
@[simp] theorem setClen_hdist (i : Nat) (v : BitVec 3) (s : State) : (setClen i v s).hdist = s.hdist := rfl
@[simp] theorem setClen_hclen (i : Nat) (v : BitVec 3) (s : State) : (setClen i v s).hclen = s.hclen := rfl
@[simp] theorem setClen_idx (i : Nat) (v : BitVec 3) (s : State) : (setClen i v s).idx = s.idx := rfl
@[simp] theorem setClen_dsym (i : Nat) (v : BitVec 3) (s : State) : (setClen i v s).dsym = s.dsym := rfl
@[simp] theorem setClen_clens (i : Nat) (v : BitVec 3) (s : State) : (setClen i v s).clens = Ram.write Config.clensSize 0 i v s.clens := rfl
@[simp] theorem setClen_lens (i : Nat) (v : BitVec 3) (s : State) : (setClen i v s).lens = s.lens := rfl
@[simp] theorem setClen_sub (i : Nat) (v : BitVec 3) (s : State) : (setClen i v s).sub = s.sub := rfl
@[simp] theorem setClen_litPending (i : Nat) (v : BitVec 3) (s : State) : (setClen i v s).litPending = s.litPending := rfl
@[simp] theorem setClen_auxLen (i : Nat) (v : BitVec 3) (s : State) : (setClen i v s).auxLen = s.auxLen := rfl
@[simp] theorem setClen_auxExtra (i : Nat) (v : BitVec 3) (s : State) : (setClen i v s).auxExtra = s.auxExtra := rfl
@[simp] theorem setClen_auxDist (i : Nat) (v : BitVec 3) (s : State) : (setClen i v s).auxDist = s.auxDist := rfl
@[simp] theorem setClen_tsel (i : Nat) (v : BitVec 3) (s : State) : (setClen i v s).tsel = s.tsel := rfl
@[simp] theorem setClen_lt (i : Nat) (v : BitVec 3) (s : State) : (setClen i v s).lt = s.lt := rfl
@[simp] theorem setClen_dt (i : Nat) (v : BitVec 3) (s : State) : (setClen i v s).dt = s.dt := rfl
@[simp] theorem setClen_ct (i : Nat) (v : BitVec 3) (s : State) : (setClen i v s).ct = s.ct := rfl
@[simp] theorem setClen_window (i : Nat) (v : BitVec 3) (s : State) : (setClen i v s).window = s.window := rfl
@[simp] theorem setClen_wEnd (i : Nat) (v : BitVec 3) (s : State) : (setClen i v s).wEnd = s.wEnd := rfl
@[simp] theorem setClen_wCount (i : Nat) (v : BitVec 3) (s : State) : (setClen i v s).wCount = s.wCount := rfl
@[simp] theorem setClen_srcPtr (i : Nat) (v : BitVec 3) (s : State) : (setClen i v s).srcPtr = s.srcPtr := rfl
@[simp] theorem setClen_srcLen (i : Nat) (v : BitVec 3) (s : State) : (setClen i v s).srcLen = s.srcLen := rfl
@[simp] theorem setClen_dstPtr (i : Nat) (v : BitVec 3) (s : State) : (setClen i v s).dstPtr = s.dstPtr := rfl
@[simp] theorem setClen_dstLen (i : Nat) (v : BitVec 3) (s : State) : (setClen i v s).dstLen = s.dstLen := rfl
@[simp] theorem setClen_dictPtr (i : Nat) (v : BitVec 3) (s : State) : (setClen i v s).dictPtr = s.dictPtr := rfl
@[simp] theorem setClen_dictLen (i : Nat) (v : BitVec 3) (s : State) : (setClen i v s).dictLen = s.dictLen := rfl
@[simp] theorem setClen_tbegin (i : Nat) (v : BitVec 3) (s : State) : (setClen i v s).tbegin = s.tbegin := rfl
@[simp] theorem setClen_mem (i : Nat) (v : BitVec 3) (s : State) : (setClen i v s).mem = s.mem := rfl
@[simp] theorem setClen_inflating (i : Nat) (v : BitVec 3) (s : State) : (setClen i v s).inflating = s.inflating := rfl
@[simp] theorem setClen_hostQueue (i : Nat) (v : BitVec 3) (s : State) : (setClen i v s).hostQueue = s.hostQueue := rfl
@[simp] theorem setClen_readback (i : Nat) (v : BitVec 3) (s : State) : (setClen i v s).readback = s.readback := rfl
@[simp] theorem setClen_draws (i : Nat) (v : BitVec 3) (s : State) : (setClen i v s).draws = s.draws := rfl

/-! ## `pushLen`. Rule R345. -/

@[simp] theorem pushLen_bstate (v : BitVec 4) (s : State) : (pushLen v s).bstate = s.bstate := rfl
@[simp] theorem pushLen_bfinal (v : BitVec 4) (s : State) : (pushLen v s).bfinal = s.bfinal := rfl
@[simp] theorem pushLen_err (v : BitVec 4) (s : State) : (pushLen v s).err = s.err := rfl
@[simp] theorem pushLen_status (v : BitVec 4) (s : State) : (pushLen v s).status = s.status := rfl
@[simp] theorem pushLen_consumedAny (v : BitVec 4) (s : State) : (pushLen v s).consumedAny = s.consumedAny := rfl
@[simp] theorem pushLen_res (v : BitVec 4) (s : State) : (pushLen v s).res = s.res := rfl
@[simp] theorem pushLen_bc (v : BitVec 4) (s : State) : (pushLen v s).bc = s.bc := rfl
@[simp] theorem pushLen_sphase (v : BitVec 4) (s : State) : (pushLen v s).sphase = s.sphase := rfl
@[simp] theorem pushLen_srem (v : BitVec 4) (s : State) : (pushLen v s).srem = s.srem := rfl
@[simp] theorem pushLen_dphase (v : BitVec 4) (s : State) : (pushLen v s).dphase = s.dphase := rfl
@[simp] theorem pushLen_hlit (v : BitVec 4) (s : State) : (pushLen v s).hlit = s.hlit := rfl
@[simp] theorem pushLen_hdist (v : BitVec 4) (s : State) : (pushLen v s).hdist = s.hdist := rfl
@[simp] theorem pushLen_hclen (v : BitVec 4) (s : State) : (pushLen v s).hclen = s.hclen := rfl
@[simp] theorem pushLen_idx (v : BitVec 4) (s : State) : (pushLen v s).idx = s.idx + 1 := rfl
@[simp] theorem pushLen_dsym (v : BitVec 4) (s : State) : (pushLen v s).dsym = s.dsym := rfl
@[simp] theorem pushLen_clens (v : BitVec 4) (s : State) : (pushLen v s).clens = s.clens := rfl
@[simp] theorem pushLen_lens (v : BitVec 4) (s : State) : (pushLen v s).lens = Ram.write Config.lensSize 0 s.idx.toNat v s.lens := rfl
@[simp] theorem pushLen_sub (v : BitVec 4) (s : State) : (pushLen v s).sub = s.sub := rfl
@[simp] theorem pushLen_litPending (v : BitVec 4) (s : State) : (pushLen v s).litPending = s.litPending := rfl
@[simp] theorem pushLen_auxLen (v : BitVec 4) (s : State) : (pushLen v s).auxLen = s.auxLen := rfl
@[simp] theorem pushLen_auxExtra (v : BitVec 4) (s : State) : (pushLen v s).auxExtra = s.auxExtra := rfl
@[simp] theorem pushLen_auxDist (v : BitVec 4) (s : State) : (pushLen v s).auxDist = s.auxDist := rfl
@[simp] theorem pushLen_tsel (v : BitVec 4) (s : State) : (pushLen v s).tsel = s.tsel := rfl
@[simp] theorem pushLen_lt (v : BitVec 4) (s : State) : (pushLen v s).lt = s.lt := rfl
@[simp] theorem pushLen_dt (v : BitVec 4) (s : State) : (pushLen v s).dt = s.dt := rfl
@[simp] theorem pushLen_ct (v : BitVec 4) (s : State) : (pushLen v s).ct = s.ct := rfl
@[simp] theorem pushLen_window (v : BitVec 4) (s : State) : (pushLen v s).window = s.window := rfl
@[simp] theorem pushLen_wEnd (v : BitVec 4) (s : State) : (pushLen v s).wEnd = s.wEnd := rfl
@[simp] theorem pushLen_wCount (v : BitVec 4) (s : State) : (pushLen v s).wCount = s.wCount := rfl
@[simp] theorem pushLen_srcPtr (v : BitVec 4) (s : State) : (pushLen v s).srcPtr = s.srcPtr := rfl
@[simp] theorem pushLen_srcLen (v : BitVec 4) (s : State) : (pushLen v s).srcLen = s.srcLen := rfl
@[simp] theorem pushLen_dstPtr (v : BitVec 4) (s : State) : (pushLen v s).dstPtr = s.dstPtr := rfl
@[simp] theorem pushLen_dstLen (v : BitVec 4) (s : State) : (pushLen v s).dstLen = s.dstLen := rfl
@[simp] theorem pushLen_dictPtr (v : BitVec 4) (s : State) : (pushLen v s).dictPtr = s.dictPtr := rfl
@[simp] theorem pushLen_dictLen (v : BitVec 4) (s : State) : (pushLen v s).dictLen = s.dictLen := rfl
@[simp] theorem pushLen_tbegin (v : BitVec 4) (s : State) : (pushLen v s).tbegin = s.tbegin := rfl
@[simp] theorem pushLen_mem (v : BitVec 4) (s : State) : (pushLen v s).mem = s.mem := rfl
@[simp] theorem pushLen_inflating (v : BitVec 4) (s : State) : (pushLen v s).inflating = s.inflating := rfl
@[simp] theorem pushLen_hostQueue (v : BitVec 4) (s : State) : (pushLen v s).hostQueue = s.hostQueue := rfl
@[simp] theorem pushLen_readback (v : BitVec 4) (s : State) : (pushLen v s).readback = s.readback := rfl
@[simp] theorem pushLen_draws (v : BitVec 4) (s : State) : (pushLen v s).draws = s.draws := rfl

/-! ## `setFinal`. Rule R311. -/

@[simp] theorem setFinal_bstate (f : Bool) (s : State) : (setFinal f s).bstate = s.bstate := rfl
@[simp] theorem setFinal_bfinal (f : Bool) (s : State) : (setFinal f s).bfinal = f := rfl
@[simp] theorem setFinal_err (f : Bool) (s : State) : (setFinal f s).err = s.err := rfl
@[simp] theorem setFinal_status (f : Bool) (s : State) : (setFinal f s).status = s.status := rfl
@[simp] theorem setFinal_consumedAny (f : Bool) (s : State) : (setFinal f s).consumedAny = s.consumedAny := rfl
@[simp] theorem setFinal_res (f : Bool) (s : State) : (setFinal f s).res = s.res := rfl
@[simp] theorem setFinal_bc (f : Bool) (s : State) : (setFinal f s).bc = s.bc := rfl
@[simp] theorem setFinal_sphase (f : Bool) (s : State) : (setFinal f s).sphase = s.sphase := rfl
@[simp] theorem setFinal_srem (f : Bool) (s : State) : (setFinal f s).srem = s.srem := rfl
@[simp] theorem setFinal_dphase (f : Bool) (s : State) : (setFinal f s).dphase = s.dphase := rfl
@[simp] theorem setFinal_hlit (f : Bool) (s : State) : (setFinal f s).hlit = s.hlit := rfl
@[simp] theorem setFinal_hdist (f : Bool) (s : State) : (setFinal f s).hdist = s.hdist := rfl
@[simp] theorem setFinal_hclen (f : Bool) (s : State) : (setFinal f s).hclen = s.hclen := rfl
@[simp] theorem setFinal_idx (f : Bool) (s : State) : (setFinal f s).idx = s.idx := rfl
@[simp] theorem setFinal_dsym (f : Bool) (s : State) : (setFinal f s).dsym = s.dsym := rfl
@[simp] theorem setFinal_clens (f : Bool) (s : State) : (setFinal f s).clens = s.clens := rfl
@[simp] theorem setFinal_lens (f : Bool) (s : State) : (setFinal f s).lens = s.lens := rfl
@[simp] theorem setFinal_sub (f : Bool) (s : State) : (setFinal f s).sub = s.sub := rfl
@[simp] theorem setFinal_litPending (f : Bool) (s : State) : (setFinal f s).litPending = s.litPending := rfl
@[simp] theorem setFinal_auxLen (f : Bool) (s : State) : (setFinal f s).auxLen = s.auxLen := rfl
@[simp] theorem setFinal_auxExtra (f : Bool) (s : State) : (setFinal f s).auxExtra = s.auxExtra := rfl
@[simp] theorem setFinal_auxDist (f : Bool) (s : State) : (setFinal f s).auxDist = s.auxDist := rfl
@[simp] theorem setFinal_tsel (f : Bool) (s : State) : (setFinal f s).tsel = s.tsel := rfl
@[simp] theorem setFinal_lt (f : Bool) (s : State) : (setFinal f s).lt = s.lt := rfl
@[simp] theorem setFinal_dt (f : Bool) (s : State) : (setFinal f s).dt = s.dt := rfl
@[simp] theorem setFinal_ct (f : Bool) (s : State) : (setFinal f s).ct = s.ct := rfl
@[simp] theorem setFinal_window (f : Bool) (s : State) : (setFinal f s).window = s.window := rfl
@[simp] theorem setFinal_wEnd (f : Bool) (s : State) : (setFinal f s).wEnd = s.wEnd := rfl
@[simp] theorem setFinal_wCount (f : Bool) (s : State) : (setFinal f s).wCount = s.wCount := rfl
@[simp] theorem setFinal_srcPtr (f : Bool) (s : State) : (setFinal f s).srcPtr = s.srcPtr := rfl
@[simp] theorem setFinal_srcLen (f : Bool) (s : State) : (setFinal f s).srcLen = s.srcLen := rfl
@[simp] theorem setFinal_dstPtr (f : Bool) (s : State) : (setFinal f s).dstPtr = s.dstPtr := rfl
@[simp] theorem setFinal_dstLen (f : Bool) (s : State) : (setFinal f s).dstLen = s.dstLen := rfl
@[simp] theorem setFinal_dictPtr (f : Bool) (s : State) : (setFinal f s).dictPtr = s.dictPtr := rfl
@[simp] theorem setFinal_dictLen (f : Bool) (s : State) : (setFinal f s).dictLen = s.dictLen := rfl
@[simp] theorem setFinal_tbegin (f : Bool) (s : State) : (setFinal f s).tbegin = s.tbegin := rfl
@[simp] theorem setFinal_mem (f : Bool) (s : State) : (setFinal f s).mem = s.mem := rfl
@[simp] theorem setFinal_inflating (f : Bool) (s : State) : (setFinal f s).inflating = s.inflating := rfl
@[simp] theorem setFinal_hostQueue (f : Bool) (s : State) : (setFinal f s).hostQueue = s.hostQueue := rfl
@[simp] theorem setFinal_readback (f : Bool) (s : State) : (setFinal f s).readback = s.readback := rfl
@[simp] theorem setFinal_draws (f : Bool) (s : State) : (setFinal f s).draws = s.draws := rfl

/-! ## `endBlock`. Rule R318. -/

@[simp] theorem endBlock_bstate (s : State) : (endBlock s).bstate = if s.bfinal then .finalConsumed else .needHeader := rfl
@[simp] theorem endBlock_bfinal (s : State) : (endBlock s).bfinal = s.bfinal := rfl
@[simp] theorem endBlock_err (s : State) : (endBlock s).err = s.err := rfl
@[simp] theorem endBlock_status (s : State) : (endBlock s).status = s.status := rfl
@[simp] theorem endBlock_consumedAny (s : State) : (endBlock s).consumedAny = s.consumedAny := rfl
@[simp] theorem endBlock_res (s : State) : (endBlock s).res = s.res := rfl
@[simp] theorem endBlock_bc (s : State) : (endBlock s).bc = s.bc := rfl
@[simp] theorem endBlock_sphase (s : State) : (endBlock s).sphase = s.sphase := rfl
@[simp] theorem endBlock_srem (s : State) : (endBlock s).srem = s.srem := rfl
@[simp] theorem endBlock_dphase (s : State) : (endBlock s).dphase = s.dphase := rfl
@[simp] theorem endBlock_hlit (s : State) : (endBlock s).hlit = s.hlit := rfl
@[simp] theorem endBlock_hdist (s : State) : (endBlock s).hdist = s.hdist := rfl
@[simp] theorem endBlock_hclen (s : State) : (endBlock s).hclen = s.hclen := rfl
@[simp] theorem endBlock_idx (s : State) : (endBlock s).idx = s.idx := rfl
@[simp] theorem endBlock_dsym (s : State) : (endBlock s).dsym = s.dsym := rfl
@[simp] theorem endBlock_clens (s : State) : (endBlock s).clens = s.clens := rfl
@[simp] theorem endBlock_lens (s : State) : (endBlock s).lens = s.lens := rfl
@[simp] theorem endBlock_sub (s : State) : (endBlock s).sub = s.sub := rfl
@[simp] theorem endBlock_litPending (s : State) : (endBlock s).litPending = s.litPending := rfl
@[simp] theorem endBlock_auxLen (s : State) : (endBlock s).auxLen = s.auxLen := rfl
@[simp] theorem endBlock_auxExtra (s : State) : (endBlock s).auxExtra = s.auxExtra := rfl
@[simp] theorem endBlock_auxDist (s : State) : (endBlock s).auxDist = s.auxDist := rfl
@[simp] theorem endBlock_tsel (s : State) : (endBlock s).tsel = s.tsel := rfl
@[simp] theorem endBlock_lt (s : State) : (endBlock s).lt = s.lt := rfl
@[simp] theorem endBlock_dt (s : State) : (endBlock s).dt = s.dt := rfl
@[simp] theorem endBlock_ct (s : State) : (endBlock s).ct = s.ct := rfl
@[simp] theorem endBlock_window (s : State) : (endBlock s).window = s.window := rfl
@[simp] theorem endBlock_wEnd (s : State) : (endBlock s).wEnd = s.wEnd := rfl
@[simp] theorem endBlock_wCount (s : State) : (endBlock s).wCount = s.wCount := rfl
@[simp] theorem endBlock_srcPtr (s : State) : (endBlock s).srcPtr = s.srcPtr := rfl
@[simp] theorem endBlock_srcLen (s : State) : (endBlock s).srcLen = s.srcLen := rfl
@[simp] theorem endBlock_dstPtr (s : State) : (endBlock s).dstPtr = s.dstPtr := rfl
@[simp] theorem endBlock_dstLen (s : State) : (endBlock s).dstLen = s.dstLen := rfl
@[simp] theorem endBlock_dictPtr (s : State) : (endBlock s).dictPtr = s.dictPtr := rfl
@[simp] theorem endBlock_dictLen (s : State) : (endBlock s).dictLen = s.dictLen := rfl
@[simp] theorem endBlock_tbegin (s : State) : (endBlock s).tbegin = s.tbegin := rfl
@[simp] theorem endBlock_mem (s : State) : (endBlock s).mem = s.mem := rfl
@[simp] theorem endBlock_inflating (s : State) : (endBlock s).inflating = s.inflating := rfl
@[simp] theorem endBlock_hostQueue (s : State) : (endBlock s).hostQueue = s.hostQueue := rfl
@[simp] theorem endBlock_readback (s : State) : (endBlock s).readback = s.readback := rfl
@[simp] theorem endBlock_draws (s : State) : (endBlock s).draws = s.draws := rfl

/-! ## `enterBody`. Rules R319 and R350. -/

@[simp] theorem enterBody_bstate (t : TSel) (s : State) : (enterBody t s).bstate = .decoding := rfl
@[simp] theorem enterBody_bfinal (t : TSel) (s : State) : (enterBody t s).bfinal = s.bfinal := rfl
@[simp] theorem enterBody_err (t : TSel) (s : State) : (enterBody t s).err = s.err := rfl
@[simp] theorem enterBody_status (t : TSel) (s : State) : (enterBody t s).status = s.status := rfl
@[simp] theorem enterBody_consumedAny (t : TSel) (s : State) : (enterBody t s).consumedAny = s.consumedAny := rfl
@[simp] theorem enterBody_res (t : TSel) (s : State) : (enterBody t s).res = s.res := rfl
@[simp] theorem enterBody_bc (t : TSel) (s : State) : (enterBody t s).bc = s.bc := rfl
@[simp] theorem enterBody_sphase (t : TSel) (s : State) : (enterBody t s).sphase = s.sphase := rfl
@[simp] theorem enterBody_srem (t : TSel) (s : State) : (enterBody t s).srem = s.srem := rfl
@[simp] theorem enterBody_dphase (t : TSel) (s : State) : (enterBody t s).dphase = s.dphase := rfl
@[simp] theorem enterBody_hlit (t : TSel) (s : State) : (enterBody t s).hlit = s.hlit := rfl
@[simp] theorem enterBody_hdist (t : TSel) (s : State) : (enterBody t s).hdist = s.hdist := rfl
@[simp] theorem enterBody_hclen (t : TSel) (s : State) : (enterBody t s).hclen = s.hclen := rfl
@[simp] theorem enterBody_idx (t : TSel) (s : State) : (enterBody t s).idx = s.idx := rfl
@[simp] theorem enterBody_dsym (t : TSel) (s : State) : (enterBody t s).dsym = s.dsym := rfl
@[simp] theorem enterBody_clens (t : TSel) (s : State) : (enterBody t s).clens = s.clens := rfl
@[simp] theorem enterBody_lens (t : TSel) (s : State) : (enterBody t s).lens = s.lens := rfl
@[simp] theorem enterBody_sub (t : TSel) (s : State) : (enterBody t s).sub = .litLen := rfl
@[simp] theorem enterBody_litPending (t : TSel) (s : State) : (enterBody t s).litPending = false := rfl
@[simp] theorem enterBody_auxLen (t : TSel) (s : State) : (enterBody t s).auxLen = s.auxLen := rfl
@[simp] theorem enterBody_auxExtra (t : TSel) (s : State) : (enterBody t s).auxExtra = s.auxExtra := rfl
@[simp] theorem enterBody_auxDist (t : TSel) (s : State) : (enterBody t s).auxDist = s.auxDist := rfl
@[simp] theorem enterBody_tsel (t : TSel) (s : State) : (enterBody t s).tsel = t := rfl
@[simp] theorem enterBody_lt (t : TSel) (s : State) : (enterBody t s).lt = s.lt := rfl
@[simp] theorem enterBody_dt (t : TSel) (s : State) : (enterBody t s).dt = s.dt := rfl
@[simp] theorem enterBody_ct (t : TSel) (s : State) : (enterBody t s).ct = s.ct := rfl
@[simp] theorem enterBody_window (t : TSel) (s : State) : (enterBody t s).window = s.window := rfl
@[simp] theorem enterBody_wEnd (t : TSel) (s : State) : (enterBody t s).wEnd = s.wEnd := rfl
@[simp] theorem enterBody_wCount (t : TSel) (s : State) : (enterBody t s).wCount = s.wCount := rfl
@[simp] theorem enterBody_srcPtr (t : TSel) (s : State) : (enterBody t s).srcPtr = s.srcPtr := rfl
@[simp] theorem enterBody_srcLen (t : TSel) (s : State) : (enterBody t s).srcLen = s.srcLen := rfl
@[simp] theorem enterBody_dstPtr (t : TSel) (s : State) : (enterBody t s).dstPtr = s.dstPtr := rfl
@[simp] theorem enterBody_dstLen (t : TSel) (s : State) : (enterBody t s).dstLen = s.dstLen := rfl
@[simp] theorem enterBody_dictPtr (t : TSel) (s : State) : (enterBody t s).dictPtr = s.dictPtr := rfl
@[simp] theorem enterBody_dictLen (t : TSel) (s : State) : (enterBody t s).dictLen = s.dictLen := rfl
@[simp] theorem enterBody_tbegin (t : TSel) (s : State) : (enterBody t s).tbegin = s.tbegin := rfl
@[simp] theorem enterBody_mem (t : TSel) (s : State) : (enterBody t s).mem = s.mem := rfl
@[simp] theorem enterBody_inflating (t : TSel) (s : State) : (enterBody t s).inflating = s.inflating := rfl
@[simp] theorem enterBody_hostQueue (t : TSel) (s : State) : (enterBody t s).hostQueue = s.hostQueue := rfl
@[simp] theorem enterBody_readback (t : TSel) (s : State) : (enterBody t s).readback = s.readback := rfl
@[simp] theorem enterBody_draws (t : TSel) (s : State) : (enterBody t s).draws = s.draws := rfl

/-! ## `copyMatchByte`. Rule R451. -/

@[simp] theorem copyMatchByte_bstate (s : State) : (copyMatchByte s).bstate = s.bstate := rfl
@[simp] theorem copyMatchByte_bfinal (s : State) : (copyMatchByte s).bfinal = s.bfinal := rfl
@[simp] theorem copyMatchByte_err (s : State) : (copyMatchByte s).err = s.err := rfl
@[simp] theorem copyMatchByte_status (s : State) : (copyMatchByte s).status = s.status := rfl
@[simp] theorem copyMatchByte_consumedAny (s : State) : (copyMatchByte s).consumedAny = s.consumedAny := rfl
@[simp] theorem copyMatchByte_res (s : State) : (copyMatchByte s).res = s.res := rfl
@[simp] theorem copyMatchByte_bc (s : State) : (copyMatchByte s).bc = s.bc := rfl
@[simp] theorem copyMatchByte_sphase (s : State) : (copyMatchByte s).sphase = s.sphase := rfl
@[simp] theorem copyMatchByte_srem (s : State) : (copyMatchByte s).srem = s.srem := rfl
@[simp] theorem copyMatchByte_dphase (s : State) : (copyMatchByte s).dphase = s.dphase := rfl
@[simp] theorem copyMatchByte_hlit (s : State) : (copyMatchByte s).hlit = s.hlit := rfl
@[simp] theorem copyMatchByte_hdist (s : State) : (copyMatchByte s).hdist = s.hdist := rfl
@[simp] theorem copyMatchByte_hclen (s : State) : (copyMatchByte s).hclen = s.hclen := rfl
@[simp] theorem copyMatchByte_idx (s : State) : (copyMatchByte s).idx = s.idx := rfl
@[simp] theorem copyMatchByte_dsym (s : State) : (copyMatchByte s).dsym = s.dsym := rfl
@[simp] theorem copyMatchByte_clens (s : State) : (copyMatchByte s).clens = s.clens := rfl
@[simp] theorem copyMatchByte_lens (s : State) : (copyMatchByte s).lens = s.lens := rfl
@[simp] theorem copyMatchByte_sub (s : State) : (copyMatchByte s).sub = s.sub := rfl
@[simp] theorem copyMatchByte_litPending (s : State) : (copyMatchByte s).litPending = s.litPending := rfl
@[simp] theorem copyMatchByte_auxLen (s : State) : (copyMatchByte s).auxLen = s.auxLen - 1 := rfl
@[simp] theorem copyMatchByte_auxExtra (s : State) : (copyMatchByte s).auxExtra = s.auxExtra := rfl
@[simp] theorem copyMatchByte_auxDist (s : State) : (copyMatchByte s).auxDist = s.auxDist := rfl
@[simp] theorem copyMatchByte_tsel (s : State) : (copyMatchByte s).tsel = s.tsel := rfl
@[simp] theorem copyMatchByte_lt (s : State) : (copyMatchByte s).lt = s.lt := rfl
@[simp] theorem copyMatchByte_dt (s : State) : (copyMatchByte s).dt = s.dt := rfl
@[simp] theorem copyMatchByte_ct (s : State) : (copyMatchByte s).ct = s.ct := rfl
@[simp] theorem copyMatchByte_window (s : State) : (copyMatchByte s).window = s.window := rfl
@[simp] theorem copyMatchByte_wEnd (s : State) : (copyMatchByte s).wEnd = s.wEnd := rfl
@[simp] theorem copyMatchByte_wCount (s : State) : (copyMatchByte s).wCount = s.wCount := rfl
@[simp] theorem copyMatchByte_srcPtr (s : State) : (copyMatchByte s).srcPtr = s.srcPtr := rfl
@[simp] theorem copyMatchByte_srcLen (s : State) : (copyMatchByte s).srcLen = s.srcLen := rfl
@[simp] theorem copyMatchByte_dstPtr (s : State) : (copyMatchByte s).dstPtr = s.dstPtr + 1 := rfl
@[simp] theorem copyMatchByte_dstLen (s : State) : (copyMatchByte s).dstLen = s.dstLen - 1 := rfl
@[simp] theorem copyMatchByte_dictPtr (s : State) : (copyMatchByte s).dictPtr = s.dictPtr := rfl
@[simp] theorem copyMatchByte_dictLen (s : State) : (copyMatchByte s).dictLen = s.dictLen := rfl
@[simp] theorem copyMatchByte_tbegin (s : State) : (copyMatchByte s).tbegin = s.tbegin := rfl
@[simp] theorem copyMatchByte_mem (s : State) : (copyMatchByte s).mem = Memory.write s.mem s.dstPtr (sourceOfMatch s.auxDist.toNat s) := rfl
@[simp] theorem copyMatchByte_inflating (s : State) : (copyMatchByte s).inflating = s.inflating := rfl
@[simp] theorem copyMatchByte_hostQueue (s : State) : (copyMatchByte s).hostQueue = s.hostQueue := rfl
@[simp] theorem copyMatchByte_readback (s : State) : (copyMatchByte s).readback = s.readback := rfl
@[simp] theorem copyMatchByte_draws (s : State) : (copyMatchByte s).draws = s.draws := rfl

/-! ## `storeHeldByte`. Rule R317. -/

@[simp] theorem storeHeldByte_bstate (s : State) : (storeHeldByte s).bstate = s.bstate := rfl
@[simp] theorem storeHeldByte_bfinal (s : State) : (storeHeldByte s).bfinal = s.bfinal := rfl
@[simp] theorem storeHeldByte_err (s : State) : (storeHeldByte s).err = s.err := rfl
@[simp] theorem storeHeldByte_status (s : State) : (storeHeldByte s).status = s.status := rfl
@[simp] theorem storeHeldByte_consumedAny (s : State) : (storeHeldByte s).consumedAny = s.consumedAny := rfl
@[simp] theorem storeHeldByte_res (s : State) : (storeHeldByte s).res = s.res >>> 8 := rfl
@[simp] theorem storeHeldByte_bc (s : State) : (storeHeldByte s).bc = s.bc - BitVec.ofNat 7 8 := rfl
@[simp] theorem storeHeldByte_sphase (s : State) : (storeHeldByte s).sphase = s.sphase := rfl
@[simp] theorem storeHeldByte_srem (s : State) : (storeHeldByte s).srem = s.srem - 1 := rfl
@[simp] theorem storeHeldByte_dphase (s : State) : (storeHeldByte s).dphase = s.dphase := rfl
@[simp] theorem storeHeldByte_hlit (s : State) : (storeHeldByte s).hlit = s.hlit := rfl
@[simp] theorem storeHeldByte_hdist (s : State) : (storeHeldByte s).hdist = s.hdist := rfl
@[simp] theorem storeHeldByte_hclen (s : State) : (storeHeldByte s).hclen = s.hclen := rfl
@[simp] theorem storeHeldByte_idx (s : State) : (storeHeldByte s).idx = s.idx := rfl
@[simp] theorem storeHeldByte_dsym (s : State) : (storeHeldByte s).dsym = s.dsym := rfl
@[simp] theorem storeHeldByte_clens (s : State) : (storeHeldByte s).clens = s.clens := rfl
@[simp] theorem storeHeldByte_lens (s : State) : (storeHeldByte s).lens = s.lens := rfl
@[simp] theorem storeHeldByte_sub (s : State) : (storeHeldByte s).sub = s.sub := rfl
@[simp] theorem storeHeldByte_litPending (s : State) : (storeHeldByte s).litPending = s.litPending := rfl
@[simp] theorem storeHeldByte_auxLen (s : State) : (storeHeldByte s).auxLen = s.auxLen := rfl
@[simp] theorem storeHeldByte_auxExtra (s : State) : (storeHeldByte s).auxExtra = s.auxExtra := rfl
@[simp] theorem storeHeldByte_auxDist (s : State) : (storeHeldByte s).auxDist = s.auxDist := rfl
@[simp] theorem storeHeldByte_tsel (s : State) : (storeHeldByte s).tsel = s.tsel := rfl
@[simp] theorem storeHeldByte_lt (s : State) : (storeHeldByte s).lt = s.lt := rfl
@[simp] theorem storeHeldByte_dt (s : State) : (storeHeldByte s).dt = s.dt := rfl
@[simp] theorem storeHeldByte_ct (s : State) : (storeHeldByte s).ct = s.ct := rfl
@[simp] theorem storeHeldByte_window (s : State) : (storeHeldByte s).window = s.window := rfl
@[simp] theorem storeHeldByte_wEnd (s : State) : (storeHeldByte s).wEnd = s.wEnd := rfl
@[simp] theorem storeHeldByte_wCount (s : State) : (storeHeldByte s).wCount = s.wCount := rfl
@[simp] theorem storeHeldByte_srcPtr (s : State) : (storeHeldByte s).srcPtr = s.srcPtr := rfl
@[simp] theorem storeHeldByte_srcLen (s : State) : (storeHeldByte s).srcLen = s.srcLen := rfl
@[simp] theorem storeHeldByte_dstPtr (s : State) : (storeHeldByte s).dstPtr = s.dstPtr + 1 := rfl
@[simp] theorem storeHeldByte_dstLen (s : State) : (storeHeldByte s).dstLen = s.dstLen - 1 := rfl
@[simp] theorem storeHeldByte_dictPtr (s : State) : (storeHeldByte s).dictPtr = s.dictPtr := rfl
@[simp] theorem storeHeldByte_dictLen (s : State) : (storeHeldByte s).dictLen = s.dictLen := rfl
@[simp] theorem storeHeldByte_tbegin (s : State) : (storeHeldByte s).tbegin = s.tbegin := rfl
@[simp] theorem storeHeldByte_mem (s : State) : (storeHeldByte s).mem = Memory.write s.mem s.dstPtr (BitVec.ofNat 8 (peek 8 s)) := rfl
@[simp] theorem storeHeldByte_inflating (s : State) : (storeHeldByte s).inflating = s.inflating := rfl
@[simp] theorem storeHeldByte_hostQueue (s : State) : (storeHeldByte s).hostQueue = s.hostQueue := rfl
@[simp] theorem storeHeldByte_readback (s : State) : (storeHeldByte s).readback = s.readback := rfl
@[simp] theorem storeHeldByte_draws (s : State) : (storeHeldByte s).draws = s.draws := rfl

/-! ## `storeSourceByte`. Rule R317. -/

@[simp] theorem storeSourceByte_bstate (s : State) : (storeSourceByte s).bstate = s.bstate := rfl
@[simp] theorem storeSourceByte_bfinal (s : State) : (storeSourceByte s).bfinal = s.bfinal := rfl
@[simp] theorem storeSourceByte_err (s : State) : (storeSourceByte s).err = s.err := rfl
@[simp] theorem storeSourceByte_status (s : State) : (storeSourceByte s).status = s.status := rfl
@[simp] theorem storeSourceByte_consumedAny (s : State) : (storeSourceByte s).consumedAny = true := rfl
@[simp] theorem storeSourceByte_res (s : State) : (storeSourceByte s).res = s.res := rfl
@[simp] theorem storeSourceByte_bc (s : State) : (storeSourceByte s).bc = s.bc := rfl
@[simp] theorem storeSourceByte_sphase (s : State) : (storeSourceByte s).sphase = s.sphase := rfl
@[simp] theorem storeSourceByte_srem (s : State) : (storeSourceByte s).srem = s.srem - 1 := rfl
@[simp] theorem storeSourceByte_dphase (s : State) : (storeSourceByte s).dphase = s.dphase := rfl
@[simp] theorem storeSourceByte_hlit (s : State) : (storeSourceByte s).hlit = s.hlit := rfl
@[simp] theorem storeSourceByte_hdist (s : State) : (storeSourceByte s).hdist = s.hdist := rfl
@[simp] theorem storeSourceByte_hclen (s : State) : (storeSourceByte s).hclen = s.hclen := rfl
@[simp] theorem storeSourceByte_idx (s : State) : (storeSourceByte s).idx = s.idx := rfl
@[simp] theorem storeSourceByte_dsym (s : State) : (storeSourceByte s).dsym = s.dsym := rfl
@[simp] theorem storeSourceByte_clens (s : State) : (storeSourceByte s).clens = s.clens := rfl
@[simp] theorem storeSourceByte_lens (s : State) : (storeSourceByte s).lens = s.lens := rfl
@[simp] theorem storeSourceByte_sub (s : State) : (storeSourceByte s).sub = s.sub := rfl
@[simp] theorem storeSourceByte_litPending (s : State) : (storeSourceByte s).litPending = s.litPending := rfl
@[simp] theorem storeSourceByte_auxLen (s : State) : (storeSourceByte s).auxLen = s.auxLen := rfl
@[simp] theorem storeSourceByte_auxExtra (s : State) : (storeSourceByte s).auxExtra = s.auxExtra := rfl
@[simp] theorem storeSourceByte_auxDist (s : State) : (storeSourceByte s).auxDist = s.auxDist := rfl
@[simp] theorem storeSourceByte_tsel (s : State) : (storeSourceByte s).tsel = s.tsel := rfl
@[simp] theorem storeSourceByte_lt (s : State) : (storeSourceByte s).lt = s.lt := rfl
@[simp] theorem storeSourceByte_dt (s : State) : (storeSourceByte s).dt = s.dt := rfl
@[simp] theorem storeSourceByte_ct (s : State) : (storeSourceByte s).ct = s.ct := rfl
@[simp] theorem storeSourceByte_window (s : State) : (storeSourceByte s).window = s.window := rfl
@[simp] theorem storeSourceByte_wEnd (s : State) : (storeSourceByte s).wEnd = s.wEnd := rfl
@[simp] theorem storeSourceByte_wCount (s : State) : (storeSourceByte s).wCount = s.wCount := rfl
@[simp] theorem storeSourceByte_srcPtr (s : State) : (storeSourceByte s).srcPtr = s.srcPtr + 1 := rfl
@[simp] theorem storeSourceByte_srcLen (s : State) : (storeSourceByte s).srcLen = s.srcLen - 1 := rfl
@[simp] theorem storeSourceByte_dstPtr (s : State) : (storeSourceByte s).dstPtr = s.dstPtr + 1 := rfl
@[simp] theorem storeSourceByte_dstLen (s : State) : (storeSourceByte s).dstLen = s.dstLen - 1 := rfl
@[simp] theorem storeSourceByte_dictPtr (s : State) : (storeSourceByte s).dictPtr = s.dictPtr := rfl
@[simp] theorem storeSourceByte_dictLen (s : State) : (storeSourceByte s).dictLen = s.dictLen := rfl
@[simp] theorem storeSourceByte_tbegin (s : State) : (storeSourceByte s).tbegin = s.tbegin := rfl
@[simp] theorem storeSourceByte_mem (s : State) : (storeSourceByte s).mem = Memory.write s.mem s.dstPtr (sourceByte s) := rfl
@[simp] theorem storeSourceByte_inflating (s : State) : (storeSourceByte s).inflating = s.inflating := rfl
@[simp] theorem storeSourceByte_hostQueue (s : State) : (storeSourceByte s).hostQueue = s.hostQueue := rfl
@[simp] theorem storeSourceByte_readback (s : State) : (storeSourceByte s).readback = s.readback := rfl
@[simp] theorem storeSourceByte_draws (s : State) : (storeSourceByte s).draws = s.draws := rfl

/-! ## `resetRegisters`. Rule R491. -/

@[simp] theorem resetRegisters_bstate (s : State) : (resetRegisters s).bstate = .needHeader := rfl
@[simp] theorem resetRegisters_bfinal (s : State) : (resetRegisters s).bfinal = false := rfl
@[simp] theorem resetRegisters_err (s : State) : (resetRegisters s).err = .none := rfl
@[simp] theorem resetRegisters_status (s : State) : (resetRegisters s).status = .ok := rfl
@[simp] theorem resetRegisters_consumedAny (s : State) : (resetRegisters s).consumedAny = false := rfl
@[simp] theorem resetRegisters_res (s : State) : (resetRegisters s).res = 0 := rfl
@[simp] theorem resetRegisters_bc (s : State) : (resetRegisters s).bc = 0 := rfl
@[simp] theorem resetRegisters_sphase (s : State) : (resetRegisters s).sphase = .lenHdr := rfl
@[simp] theorem resetRegisters_srem (s : State) : (resetRegisters s).srem = 0 := rfl
@[simp] theorem resetRegisters_dphase (s : State) : (resetRegisters s).dphase = .counts := rfl
@[simp] theorem resetRegisters_hlit (s : State) : (resetRegisters s).hlit = 0 := rfl
@[simp] theorem resetRegisters_hdist (s : State) : (resetRegisters s).hdist = 0 := rfl
@[simp] theorem resetRegisters_hclen (s : State) : (resetRegisters s).hclen = 0 := rfl
@[simp] theorem resetRegisters_idx (s : State) : (resetRegisters s).idx = 0 := rfl
@[simp] theorem resetRegisters_dsym (s : State) : (resetRegisters s).dsym = 0 := rfl
@[simp] theorem resetRegisters_clens (s : State) : (resetRegisters s).clens = s.clens := rfl
@[simp] theorem resetRegisters_lens (s : State) : (resetRegisters s).lens = s.lens := rfl
@[simp] theorem resetRegisters_sub (s : State) : (resetRegisters s).sub = .litLen := rfl
@[simp] theorem resetRegisters_litPending (s : State) : (resetRegisters s).litPending = false := rfl
@[simp] theorem resetRegisters_auxLen (s : State) : (resetRegisters s).auxLen = 0 := rfl
@[simp] theorem resetRegisters_auxExtra (s : State) : (resetRegisters s).auxExtra = 0 := rfl
@[simp] theorem resetRegisters_auxDist (s : State) : (resetRegisters s).auxDist = 0 := rfl
@[simp] theorem resetRegisters_tsel (s : State) : (resetRegisters s).tsel = .fixed := rfl
@[simp] theorem resetRegisters_lt (s : State) : (resetRegisters s).lt = s.lt := rfl
@[simp] theorem resetRegisters_dt (s : State) : (resetRegisters s).dt = s.dt := rfl
@[simp] theorem resetRegisters_ct (s : State) : (resetRegisters s).ct = s.ct := rfl
@[simp] theorem resetRegisters_window (s : State) : (resetRegisters s).window = s.window := rfl
@[simp] theorem resetRegisters_wEnd (s : State) : (resetRegisters s).wEnd = 0 := rfl
@[simp] theorem resetRegisters_wCount (s : State) : (resetRegisters s).wCount = 0 := rfl
@[simp] theorem resetRegisters_srcPtr (s : State) : (resetRegisters s).srcPtr = s.srcPtr := rfl
@[simp] theorem resetRegisters_srcLen (s : State) : (resetRegisters s).srcLen = s.srcLen := rfl
@[simp] theorem resetRegisters_dstPtr (s : State) : (resetRegisters s).dstPtr = s.dstPtr := rfl
@[simp] theorem resetRegisters_dstLen (s : State) : (resetRegisters s).dstLen = s.dstLen := rfl
@[simp] theorem resetRegisters_dictPtr (s : State) : (resetRegisters s).dictPtr = s.dictPtr := rfl
@[simp] theorem resetRegisters_dictLen (s : State) : (resetRegisters s).dictLen = s.dictLen := rfl
@[simp] theorem resetRegisters_tbegin (s : State) : (resetRegisters s).tbegin = s.tbegin := rfl
@[simp] theorem resetRegisters_mem (s : State) : (resetRegisters s).mem = s.mem := rfl
@[simp] theorem resetRegisters_inflating (s : State) : (resetRegisters s).inflating = s.inflating := rfl
@[simp] theorem resetRegisters_hostQueue (s : State) : (resetRegisters s).hostQueue = s.hostQueue := rfl
@[simp] theorem resetRegisters_readback (s : State) : (resetRegisters s).readback = s.readback := rfl
@[simp] theorem resetRegisters_draws (s : State) : (resetRegisters s).draws = s.draws := rfl

/-! ## `raise`. Rules R610 and R611. -/

@[simp] theorem raise_bstate (c : ErrCode) (s : State) : (raise c s).bstate = .bad := rfl
@[simp] theorem raise_bfinal (c : ErrCode) (s : State) : (raise c s).bfinal = s.bfinal := rfl
@[simp] theorem raise_err (c : ErrCode) (s : State) : (raise c s).err = c := rfl
@[simp] theorem raise_status (c : ErrCode) (s : State) : (raise c s).status = .error := rfl
@[simp] theorem raise_consumedAny (c : ErrCode) (s : State) : (raise c s).consumedAny = s.consumedAny := rfl
@[simp] theorem raise_res (c : ErrCode) (s : State) : (raise c s).res = BitVec.ofNat 64 ((Config.freeRes s.draws).toNat % 2 ^ min (Config.freeBc s.draws) Config.resWidth.bits) := rfl
@[simp] theorem raise_bc (c : ErrCode) (s : State) : (raise c s).bc = BitVec.ofNat 7 (min (Config.freeBc s.draws) Config.resWidth.bits) := rfl
@[simp] theorem raise_sphase (c : ErrCode) (s : State) : (raise c s).sphase = s.sphase := rfl
@[simp] theorem raise_srem (c : ErrCode) (s : State) : (raise c s).srem = s.srem := rfl
@[simp] theorem raise_dphase (c : ErrCode) (s : State) : (raise c s).dphase = s.dphase := rfl
@[simp] theorem raise_hlit (c : ErrCode) (s : State) : (raise c s).hlit = s.hlit := rfl
@[simp] theorem raise_hdist (c : ErrCode) (s : State) : (raise c s).hdist = s.hdist := rfl
@[simp] theorem raise_hclen (c : ErrCode) (s : State) : (raise c s).hclen = s.hclen := rfl
@[simp] theorem raise_idx (c : ErrCode) (s : State) : (raise c s).idx = s.idx := rfl
@[simp] theorem raise_dsym (c : ErrCode) (s : State) : (raise c s).dsym = s.dsym := rfl
@[simp] theorem raise_clens (c : ErrCode) (s : State) : (raise c s).clens = s.clens := rfl
@[simp] theorem raise_lens (c : ErrCode) (s : State) : (raise c s).lens = s.lens := rfl
@[simp] theorem raise_sub (c : ErrCode) (s : State) : (raise c s).sub = s.sub := rfl
@[simp] theorem raise_litPending (c : ErrCode) (s : State) : (raise c s).litPending = s.litPending := rfl
@[simp] theorem raise_auxLen (c : ErrCode) (s : State) : (raise c s).auxLen = s.auxLen := rfl
@[simp] theorem raise_auxExtra (c : ErrCode) (s : State) : (raise c s).auxExtra = s.auxExtra := rfl
@[simp] theorem raise_auxDist (c : ErrCode) (s : State) : (raise c s).auxDist = s.auxDist := rfl
@[simp] theorem raise_tsel (c : ErrCode) (s : State) : (raise c s).tsel = s.tsel := rfl
@[simp] theorem raise_lt (c : ErrCode) (s : State) : (raise c s).lt = s.lt := rfl
@[simp] theorem raise_dt (c : ErrCode) (s : State) : (raise c s).dt = s.dt := rfl
@[simp] theorem raise_ct (c : ErrCode) (s : State) : (raise c s).ct = s.ct := rfl
@[simp] theorem raise_window (c : ErrCode) (s : State) : (raise c s).window = Ram.ofFn Config.wsize 0 (Config.freeWindow s.draws) := by simp only [raise, unspecifiedAfterError]
@[simp] theorem raise_wEnd (c : ErrCode) (s : State) : (raise c s).wEnd = Config.freeWEnd s.draws := rfl
@[simp] theorem raise_wCount (c : ErrCode) (s : State) : (raise c s).wCount = BitVec.ofNat 16 (min Config.wsize (Config.freeWCount s.draws)) := rfl
@[simp] theorem raise_srcPtr (c : ErrCode) (s : State) : (raise c s).srcPtr = Config.freeSrcPtr s.draws := rfl
@[simp] theorem raise_srcLen (c : ErrCode) (s : State) : (raise c s).srcLen = Config.freeSrcLen s.draws := rfl
@[simp] theorem raise_dstPtr (c : ErrCode) (s : State) : (raise c s).dstPtr = Config.freeDstPtr s.draws := rfl
@[simp] theorem raise_dstLen (c : ErrCode) (s : State) : (raise c s).dstLen = Config.freeDstLen s.draws := rfl
@[simp] theorem raise_dictPtr (c : ErrCode) (s : State) : (raise c s).dictPtr = s.dictPtr := rfl
@[simp] theorem raise_dictLen (c : ErrCode) (s : State) : (raise c s).dictLen = s.dictLen := rfl
@[simp] theorem raise_tbegin (c : ErrCode) (s : State) : (raise c s).tbegin = s.tbegin := rfl
@[simp] theorem raise_mem (c : ErrCode) (s : State) : (raise c s).mem = unspecifiedTarget s.draws s.dstLen.toNat s.dstPtr s.mem := rfl
@[simp] theorem raise_inflating (c : ErrCode) (s : State) : (raise c s).inflating = none := rfl
@[simp] theorem raise_hostQueue (c : ErrCode) (s : State) : (raise c s).hostQueue = s.hostQueue := rfl
@[simp] theorem raise_readback (c : ErrCode) (s : State) : (raise c s).readback = s.readback := rfl
@[simp] theorem raise_draws (c : ErrCode) (s : State) : (raise c s).draws = s.draws + 1 := rfl

end Sys2Proof.Machine
end

