-- ==== Sys2Proof/Laws/Ops.lean ====
section
/-! SUPPORT. One lemma for each shared operation that loops: all it can do, in one statement. -/

namespace Sys2Proof.Machine

/-! ## Counting down and along -/

/-- A span length that is not 0 counts down. -/
theorem toNat_pred {w : Word} (h : 0 < w.toNat) : (w - 1).toNat = w.toNat - 1 := by
  bv_omega

/-- The distance from the next address. -/
theorem toNat_sub_succ {a b : Word} (h : 0 < (b - a).toNat) : (b - (a + 1)).toNat = (b - a).toNat - 1 := by
  bv_omega

/-! ## Loops as iterations -/

/-- The loop of DEC-COPY copies `k` bytes, or as many as the target has room for (rule R451). -/
theorem copyMatch_spec (k : Nat) (s : State) :
    copyMatch k s = if k ≤ s.dstLen.toNat then .done (copyMatchByte^[k] s)
      else .targetFull (copyMatchByte^[s.dstLen.toNat] s) := by
  induction k generalizing s with
  | zero => simp [copyMatch]
  | succ k ih =>
    by_cases h : s.dstLen = 0
    · simp [copyMatch, h]
    · have pos : 0 < s.dstLen.toNat := by
        rw [Nat.pos_iff_ne_zero]
        exact fun e => h (BitVec.eq_of_toNat_eq e)
      have len : (copyMatchByte s).dstLen.toNat = s.dstLen.toNat - 1 := by
        rw [copyMatchByte_dstLen, toNat_pred pos]
      simp only [copyMatch, h, if_false]
      rw [ih, len]
      by_cases hk : k + 1 ≤ s.dstLen.toNat
      · rw [if_pos (by omega), if_pos hk, Function.iterate_succ_apply]
      · rw [if_neg (by omega), if_neg hk]
        congr 1
        rw [← Function.iterate_succ_apply]
        congr 1
        omega

/-- The loop of STORED-COPY in the slow path, the reservoir empty (rules R317, R321): it copies `k` bytes, or stops at the first byte that a span does not have; the target is asked first. -/
theorem copyStored_spec (k : Nat) (s : State) (slow : s.bc.toNat < 8) :
    copyStored k s =
      if k ≤ s.dstLen.toNat ∧ k ≤ s.srcLen.toNat then .done (storeSourceByte^[k] s)
      else if s.dstLen.toNat ≤ s.srcLen.toNat then .targetFull (storeSourceByte^[s.dstLen.toNat] s)
      else .sourceDry (storeSourceByte^[s.srcLen.toNat] s) := by
  induction k generalizing s with
  | zero => simp [copyStored]
  | succ k ih =>
    by_cases hd : s.dstLen = 0
    · simp [copyStored, hd]
    · have posd : 0 < s.dstLen.toNat := by
        rw [Nat.pos_iff_ne_zero]
        exact fun e => hd (BitVec.eq_of_toNat_eq e)
      by_cases hs : s.srcLen = 0
      · simp only [copyStored, hd, if_false, Nat.not_le.mpr slow, hs, if_true]
        rw [if_neg (by simp), if_neg (by simpa using posd.ne')]
        simp
      · have poss : 0 < s.srcLen.toNat := by
          rw [Nat.pos_iff_ne_zero]
          exact fun e => hs (BitVec.eq_of_toNat_eq e)
        have lend : (storeSourceByte s).dstLen.toNat = s.dstLen.toNat - 1 := by
          rw [storeSourceByte_dstLen, toNat_pred posd]
        have lens : (storeSourceByte s).srcLen.toNat = s.srcLen.toNat - 1 := by
          rw [storeSourceByte_srcLen, toNat_pred poss]
        simp only [copyStored, hd, if_false, Nat.not_le.mpr slow, hs]
        rw [ih _ (by simpa using slow), lend, lens]
        by_cases hk : k + 1 ≤ s.dstLen.toNat ∧ k + 1 ≤ s.srcLen.toNat
        · rw [if_pos (by omega), if_pos hk, Function.iterate_succ_apply]
        · rw [if_neg (by omega), if_neg hk]
          by_cases hc : s.dstLen.toNat ≤ s.srcLen.toNat
          · rw [if_pos (by omega), if_pos hc, ← Function.iterate_succ_apply]
            congr 2
            omega
          · rw [if_neg (by omega), if_neg hc, ← Function.iterate_succ_apply]
            congr 2
            omega

/-- The loop of `fold()` touches the window and `w_end` only. -/
theorem foldBytes_frame (k i : Nat) (s : State) :
    foldBytes k i s = { s with window := (foldBytes k i s).window, wEnd := (foldBytes k i s).wEnd } := by
  induction k generalizing i s with
  | zero => rfl
  | succ k ih =>
    simp only [foldBytes]
    rw [ih]
    rfl

/-- Where `w_end` stands after the loop of `fold()`. -/
theorem foldBytes_wEnd (k i : Nat) (s : State) : (foldBytes k i s).wEnd = s.wEnd + BitVec.ofNat 15 k := by
  induction k generalizing i s with
  | zero => simp [foldBytes]
  | succ k ih =>
    simp only [foldBytes]
    rw [ih, BitVec.ofNat_add]
    simp only
    rw [BitVec.add_comm (BitVec.ofNat 15 k), ← BitVec.add_assoc]
    rfl

/-- The loop of `install` touches the window only. -/
theorem installBytes_frame (k i : Nat) (a : Word) (s : State) :
    installBytes k i a s = { s with window := (installBytes k i a s).window } := by
  induction k generalizing i a s with
  | zero => rfl
  | succ k ih =>
    simp only [installBytes]
    rw [ih]
    rfl

/-- A run of equal lengths touches `lens` and `idx` only. -/
theorem pushLens_frame (r : Nat) (v : BitVec 4) (s : State) :
    pushLens r v s = { s with lens := (pushLens r v s).lens, idx := s.idx + BitVec.ofNat 9 r } := by
  induction r generalizing s with
  | zero => simp [pushLens]
  | succ r ih =>
    simp only [pushLens]
    rw [ih, BitVec.ofNat_add]
    simp only [pushLen_idx]
    rw [BitVec.add_comm (BitVec.ofNat 9 r), ← BitVec.add_assoc]
    rfl

/-! ## What an error leaves in the target -/

theorem unspecifiedTarget_wf (draw k : Nat) (a : Word) {m : Memory} (h : Memory.wf m = true) :
    Memory.wf (unspecifiedTarget draw k a m) = true := by
  induction k generalizing a m with
  | zero => exact h
  | succ k ih => exact ih _ (Memory.wf_write h _ _)

/-- Outside the `k` bytes from `a` on, an error leaves every byte (rule R611). -/
theorem unspecifiedTarget_read (draw k : Nat) (a : Word) {m : Memory} (h : Memory.wf m = true) (b : Word)
    (out : k ≤ (b - a).toNat) : Memory.read (unspecifiedTarget draw k a m) b = Memory.read m b := by
  induction k generalizing a m with
  | zero => rfl
  | succ k ih =>
    simp only [unspecifiedTarget]
    have ne : b ≠ a := by
      rintro rfl
      simp at out
    have step := toNat_sub_succ (a := a) (b := b) (by omega)
    rw [ih _ (Memory.wf_write h _ _) (by omega), Memory.read_write h, if_neg ne]

end Sys2Proof.Machine
end

