-- ==== Sys2Proof/Laws/PerInstr.lean ====
section
/-! SUPPORT. One fact about every instruction, proved constructor by constructor: its wire form under the table's codes is at most 32 bits of the stream (rule R209: no single demand is larger), or a register offset that is a multiple of 4 (rule R61). -/

namespace Sys2Proof.Laws.WireForm

open Sys2Proof.Machine

/-- At most 32 bits, or an aligned offset. -/
def fits : Wire → Prop
  | .bits _ bs => bs.length ≤ 32
  | .access off _ => off.toNat % 4 = 0

/-- The wire form of the instruction fits. -/
def Statement (i : Instr) : Prop := fits (encode tableCodes i)

/-- The length of a symbol's code and extra bits. -/
theorem fits_symbol (p : Position) (code : Nat → Nat × Nat) (s n v : Nat) (h : (code s).1 + n ≤ 32) :
    fits (.bits p (symbolBits code s ++ fieldBits n v)) := by
  simpa [fits, symbolBits] using h

/-- The length of a symbol's code. -/
theorem fits_code (p : Position) (code : Nat → Nat × Nat) (s : Nat) (h : (code s).1 ≤ 32) :
    fits (.bits p (symbolBits code s)) := by
  simpa [fits, symbolBits] using h

/-- The fixed literal/length code has at most 9 bits (rule R131). -/
theorem fixedLLCode_length (s : Nat) : (fixedLLCode s).1 ≤ 9 := by
  unfold fixedLLCode
  split_ifs <;> simp

theorem blockStored : ∀ x0, Statement (.blockStored x0) := fun x0 => by simp [Statement, encode, fits]

theorem blockFixed : ∀ x0, Statement (.blockFixed x0) := fun x0 => by simp [Statement, encode, fits]

theorem blockDynamic : ∀ x0, Statement (.blockDynamic x0) := fun x0 => by simp [Statement, encode, fits]

theorem blockReserved : ∀ x0, Statement (.blockReserved x0) := fun x0 => by simp [Statement, encode, fits]

theorem storedhdr : ∀ x0 x1, Statement (.storedhdr x0 x1) := fun x0 x1 => by simp [Statement, encode, fits]

theorem storedData : Statement .storedData := by simp [Statement, encode, fits]

theorem dynhdr : ∀ x0 x1 x2, Statement (.dynhdr x0 x1 x2) := fun x0 x1 x2 => by simp [Statement, encode, fits]

theorem cll : ∀ x0, Statement (.cll x0) := fun x0 => by simp [Statement, encode, fits]

theorem cl0 : Statement .cl0 := fits_code _ _ _ (by decide)

theorem cl1 : Statement .cl1 := fits_code _ _ _ (by decide)

theorem cl2 : Statement .cl2 := fits_code _ _ _ (by decide)

theorem cl3 : Statement .cl3 := fits_code _ _ _ (by decide)

theorem cl4 : Statement .cl4 := fits_code _ _ _ (by decide)

theorem cl5 : Statement .cl5 := fits_code _ _ _ (by decide)

theorem cl6 : Statement .cl6 := fits_code _ _ _ (by decide)

theorem cl7 : Statement .cl7 := fits_code _ _ _ (by decide)

theorem cl8 : Statement .cl8 := fits_code _ _ _ (by decide)

theorem cl9 : Statement .cl9 := fits_code _ _ _ (by decide)

theorem cl10 : Statement .cl10 := fits_code _ _ _ (by decide)

theorem cl11 : Statement .cl11 := fits_code _ _ _ (by decide)

theorem cl12 : Statement .cl12 := fits_code _ _ _ (by decide)

theorem cl13 : Statement .cl13 := fits_code _ _ _ (by decide)

theorem cl14 : Statement .cl14 := fits_code _ _ _ (by decide)

theorem cl15 : Statement .cl15 := fits_code _ _ _ (by decide)

theorem rep16 : ∀ x0, Statement (.rep16 x0) := fun x0 => fits_symbol _ _ _ _ _ (by decide)

theorem rep17 : ∀ x0, Statement (.rep17 x0) := fun x0 => fits_symbol _ _ _ _ _ (by decide)

theorem rep18 : ∀ x0, Statement (.rep18 x0) := fun x0 => fits_symbol _ _ _ _ _ (by decide)

theorem lit : ∀ x0, Statement (.lit x0) := fun x0 => fits_code _ _ _ ((fixedLLCode_length _).trans (by decide))

theorem eob : Statement .eob := fits_code _ _ _ (by decide)

theorem len257 : Statement .len257 := fits_code _ _ _ (by decide)

theorem len258 : Statement .len258 := fits_code _ _ _ (by decide)

theorem len259 : Statement .len259 := fits_code _ _ _ (by decide)

theorem len260 : Statement .len260 := fits_code _ _ _ (by decide)

theorem len261 : Statement .len261 := fits_code _ _ _ (by decide)

theorem len262 : Statement .len262 := fits_code _ _ _ (by decide)

theorem len263 : Statement .len263 := fits_code _ _ _ (by decide)

theorem len264 : Statement .len264 := fits_code _ _ _ (by decide)

theorem len265 : ∀ x0, Statement (.len265 x0) := fun x0 => fits_symbol _ _ _ _ _ (by decide)

theorem len266 : ∀ x0, Statement (.len266 x0) := fun x0 => fits_symbol _ _ _ _ _ (by decide)

theorem len267 : ∀ x0, Statement (.len267 x0) := fun x0 => fits_symbol _ _ _ _ _ (by decide)

theorem len268 : ∀ x0, Statement (.len268 x0) := fun x0 => fits_symbol _ _ _ _ _ (by decide)

theorem len269 : ∀ x0, Statement (.len269 x0) := fun x0 => fits_symbol _ _ _ _ _ (by decide)

theorem len270 : ∀ x0, Statement (.len270 x0) := fun x0 => fits_symbol _ _ _ _ _ (by decide)

theorem len271 : ∀ x0, Statement (.len271 x0) := fun x0 => fits_symbol _ _ _ _ _ (by decide)

theorem len272 : ∀ x0, Statement (.len272 x0) := fun x0 => fits_symbol _ _ _ _ _ (by decide)

theorem len273 : ∀ x0, Statement (.len273 x0) := fun x0 => fits_symbol _ _ _ _ _ (by decide)

theorem len274 : ∀ x0, Statement (.len274 x0) := fun x0 => fits_symbol _ _ _ _ _ (by decide)

theorem len275 : ∀ x0, Statement (.len275 x0) := fun x0 => fits_symbol _ _ _ _ _ (by decide)

theorem len276 : ∀ x0, Statement (.len276 x0) := fun x0 => fits_symbol _ _ _ _ _ (by decide)

theorem len277 : ∀ x0, Statement (.len277 x0) := fun x0 => fits_symbol _ _ _ _ _ (by decide)

theorem len278 : ∀ x0, Statement (.len278 x0) := fun x0 => fits_symbol _ _ _ _ _ (by decide)

theorem len279 : ∀ x0, Statement (.len279 x0) := fun x0 => fits_symbol _ _ _ _ _ (by decide)

theorem len280 : ∀ x0, Statement (.len280 x0) := fun x0 => fits_symbol _ _ _ _ _ (by decide)

theorem len281 : ∀ x0, Statement (.len281 x0) := fun x0 => fits_symbol _ _ _ _ _ (by decide)

theorem len282 : ∀ x0, Statement (.len282 x0) := fun x0 => fits_symbol _ _ _ _ _ (by decide)

theorem len283 : ∀ x0, Statement (.len283 x0) := fun x0 => fits_symbol _ _ _ _ _ (by decide)

theorem len284 : ∀ x0, Statement (.len284 x0) := fun x0 => fits_symbol _ _ _ _ _ (by decide)

theorem len285 : Statement .len285 := fits_code _ _ _ (by decide)

theorem ll286Invalid : Statement .ll286Invalid := fits_code _ _ _ (by decide)

theorem ll287Invalid : Statement .ll287Invalid := fits_code _ _ _ (by decide)

theorem dist0 : Statement .dist0 := fits_code _ _ _ (by decide)

theorem dist1 : Statement .dist1 := fits_code _ _ _ (by decide)

theorem dist2 : Statement .dist2 := fits_code _ _ _ (by decide)

theorem dist3 : Statement .dist3 := fits_code _ _ _ (by decide)

theorem dist4 : ∀ x0, Statement (.dist4 x0) := fun x0 => fits_symbol _ _ _ _ _ (by decide)

theorem dist5 : ∀ x0, Statement (.dist5 x0) := fun x0 => fits_symbol _ _ _ _ _ (by decide)

theorem dist6 : ∀ x0, Statement (.dist6 x0) := fun x0 => fits_symbol _ _ _ _ _ (by decide)

theorem dist7 : ∀ x0, Statement (.dist7 x0) := fun x0 => fits_symbol _ _ _ _ _ (by decide)

theorem dist8 : ∀ x0, Statement (.dist8 x0) := fun x0 => fits_symbol _ _ _ _ _ (by decide)

theorem dist9 : ∀ x0, Statement (.dist9 x0) := fun x0 => fits_symbol _ _ _ _ _ (by decide)

theorem dist10 : ∀ x0, Statement (.dist10 x0) := fun x0 => fits_symbol _ _ _ _ _ (by decide)

theorem dist11 : ∀ x0, Statement (.dist11 x0) := fun x0 => fits_symbol _ _ _ _ _ (by decide)

theorem dist12 : ∀ x0, Statement (.dist12 x0) := fun x0 => fits_symbol _ _ _ _ _ (by decide)

theorem dist13 : ∀ x0, Statement (.dist13 x0) := fun x0 => fits_symbol _ _ _ _ _ (by decide)

theorem dist14 : ∀ x0, Statement (.dist14 x0) := fun x0 => fits_symbol _ _ _ _ _ (by decide)

theorem dist15 : ∀ x0, Statement (.dist15 x0) := fun x0 => fits_symbol _ _ _ _ _ (by decide)

theorem dist16 : ∀ x0, Statement (.dist16 x0) := fun x0 => fits_symbol _ _ _ _ _ (by decide)

theorem dist17 : ∀ x0, Statement (.dist17 x0) := fun x0 => fits_symbol _ _ _ _ _ (by decide)

theorem dist18 : ∀ x0, Statement (.dist18 x0) := fun x0 => fits_symbol _ _ _ _ _ (by decide)

theorem dist19 : ∀ x0, Statement (.dist19 x0) := fun x0 => fits_symbol _ _ _ _ _ (by decide)

theorem dist20 : ∀ x0, Statement (.dist20 x0) := fun x0 => fits_symbol _ _ _ _ _ (by decide)

theorem dist21 : ∀ x0, Statement (.dist21 x0) := fun x0 => fits_symbol _ _ _ _ _ (by decide)

theorem dist22 : ∀ x0, Statement (.dist22 x0) := fun x0 => fits_symbol _ _ _ _ _ (by decide)

theorem dist23 : ∀ x0, Statement (.dist23 x0) := fun x0 => fits_symbol _ _ _ _ _ (by decide)

theorem dist24 : ∀ x0, Statement (.dist24 x0) := fun x0 => fits_symbol _ _ _ _ _ (by decide)

theorem dist25 : ∀ x0, Statement (.dist25 x0) := fun x0 => fits_symbol _ _ _ _ _ (by decide)

theorem dist26 : ∀ x0, Statement (.dist26 x0) := fun x0 => fits_symbol _ _ _ _ _ (by decide)

theorem dist27 : ∀ x0, Statement (.dist27 x0) := fun x0 => fits_symbol _ _ _ _ _ (by decide)

theorem dist28 : ∀ x0, Statement (.dist28 x0) := fun x0 => fits_symbol _ _ _ _ _ (by decide)

theorem dist29 : ∀ x0, Statement (.dist29 x0) := fun x0 => fits_symbol _ _ _ _ _ (by decide)

theorem dist30Invalid : Statement .dist30Invalid := fits_code _ _ _ (by decide)

theorem dist31Invalid : Statement .dist31Invalid := fits_code _ _ _ (by decide)

theorem reset : Statement .reset := by simp [Statement, encode, fits]

theorem setDictionary : Statement .setDictionary := by simp [Statement, encode, fits]

theorem inflate : ∀ x0, Statement (.inflate x0) := fun x0 => by simp [Statement, encode, fits]

theorem cmdReserved : ∀ x0, Statement (.cmdReserved x0) := fun x0 => by simp [Statement, encode, fits]

theorem setSource : ∀ x0 x1, Statement (.setSource x0 x1) := fun x0 x1 => by cases x0 <;> simp [Statement, encode, fits]

theorem setTarget : ∀ x0 x1, Statement (.setTarget x0 x1) := fun x0 x1 => by cases x0 <;> simp [Statement, encode, fits]

end Sys2Proof.Laws.WireForm
end

