-- ==== Sys2Proof/Laws/Spans.lean ====
section
/-! SUPPORT. The span checks as arithmetic (rules R86, R96), and all that INFLATE and SET_DICTIONARY can answer. -/

namespace Sys2Proof.Machine

theorem spanWraps_iff (p n : Word) : spanWraps p n = true ↔ 2 ^ 32 < p.toNat + n.toNat := by
  simp [spanWraps]

theorem spanWraps_eq_false_iff (p n : Word) : spanWraps p n = false ↔ p.toNat + n.toNat ≤ 2 ^ 32 := by
  simp [spanWraps]

/-- Two spans overlap where some address lies in both (rule R96). -/
theorem spansOverlap_iff (p n q m : Word) :
    spansOverlap p n q m = true ↔
      ∃ a, p.toNat ≤ a ∧ a < p.toNat + n.toNat ∧ q.toNat ≤ a ∧ a < q.toNat + m.toNat := by
  simp only [spansOverlap, Bool.and_eq_true, decide_eq_true_eq]
  constructor
  · exact fun h => ⟨max p.toNat q.toNat, by omega⟩
  · rintro ⟨a, h⟩
    omega

/-- Every next state INFLATE answers: ERROR in BAD, and with legal spans BAD_STATE before RESET, OK after the end, or the start of its steps. -/
theorem execInflate_cases {final : Bool} {s t : State} (h : execInflate final s = .next t) :
    (s.bstate = .bad ∧ t = { s with status := .error }) ∨
    (s.bstate ≠ .bad ∧ spanWraps s.srcPtr s.srcLen = false ∧ spanWraps s.dstPtr s.dstLen = false ∧
      spansOverlap s.srcPtr s.srcLen s.dstPtr s.dstLen = false ∧
      ((s.bstate = .uninit ∧ t = raise .badState s) ∨
       (s.bstate = .finalConsumed ∧ t = { s with status := .ok }) ∨
       (s.bstate ≠ .uninit ∧ s.bstate ≠ .finalConsumed ∧ t = { s with tbegin := s.dstPtr, inflating := some final }))) := by
  unfold execInflate at h
  split at h
  · exact .inl ⟨‹_›, (Host.Outcome.next.inj h).symm⟩
  split at h
  · cases h
  split at h
  · cases h
  split at h
  · cases h
  refine .inr ⟨‹_›, Bool.eq_false_of_not_eq_true ‹_›, Bool.eq_false_of_not_eq_true ‹_›, Bool.eq_false_of_not_eq_true ‹_›, ?_⟩
  split at h
  · exact .inl ⟨‹_›, (Host.Outcome.next.inj h).symm⟩
  split at h
  · exact .inr (.inl ⟨‹_›, (Host.Outcome.next.inj h).symm⟩)
  · exact .inr (.inr ⟨‹_›, ‹_›, (Host.Outcome.next.inj h).symm⟩)

/-- Every next state SET_DICTIONARY answers: ERROR in BAD, and with a legal span BAD_STATE before RESET or after input, or the installed dictionary. -/
theorem execSetDictionary_cases {s t : State} (h : execSetDictionary s = .next t) :
    (s.bstate = .bad ∧ t = { s with status := .error }) ∨
    (s.bstate ≠ .bad ∧ spanWraps s.dictPtr s.dictLen = false ∧
      spansOverlap s.dictPtr s.dictLen s.dstPtr s.dstLen = false ∧
      ((dictionaryTooLate s = true ∧ t = raise .badState s) ∨
       (dictionaryTooLate s = false ∧ t = { install s with status := .ok }))) := by
  unfold execSetDictionary at h
  split at h
  · exact .inl ⟨‹_›, (Host.Outcome.next.inj h).symm⟩
  split at h
  · cases h
  split at h
  · cases h
  refine .inr ⟨‹_›, Bool.eq_false_of_not_eq_true ‹_›, Bool.eq_false_of_not_eq_true ‹_›, ?_⟩
  split at h
  · exact .inl ⟨‹_›, (Host.Outcome.next.inj h).symm⟩
  · exact .inr ⟨Bool.eq_false_of_not_eq_true ‹_›, (Host.Outcome.next.inj h).symm⟩

end Sys2Proof.Machine
end

