-- ==== Sys2Proof/Laws/Storage.lean ====
section
/-! SUPPORT. Every shared operation keeps the storage in range: one lemma for each. -/

namespace Sys2Proof.Machine

/-- The storage of a state is in range where that of a state with the same storage is. -/
theorem StorageInv.congr {s t : State} (h : StorageInv s) (mem : t.mem = s.mem) (clens : t.clens = s.clens)
    (lens : t.lens = s.lens) (lt : t.lt = s.lt) (dt : t.dt = s.dt) (ct : t.ct = s.ct) (window : t.window = s.window)
    (bc : t.bc = s.bc) (res : t.res = s.res) (wCount : t.wCount = s.wCount) : StorageInv t where
  mem := mem ▸ h.mem
  clens := clens ▸ h.clens
  lens := lens ▸ h.lens
  lt := lt ▸ h.lt
  dt := dt ▸ h.dt
  ct := ct ▸ h.ct
  window := window ▸ h.window
  bc := bc ▸ h.bc
  res := by rw [bc, res]; exact h.res
  wCount := wCount ▸ h.wCount

/-- The fill of the reservoir after a drop (rule R206). -/
theorem drop_bc_toNat {n : Nat} {s : State} (le : n ≤ s.bc.toNat) : (drop n s).bc.toNat = s.bc.toNat - n := by
  rw [drop_bc]
  have := s.bc.isLt
  rw [BitVec.toNat_sub, BitVec.toNat_ofNat, Nat.mod_eq_of_lt (show n < 2 ^ 7 by omega)]
  omega

/-- The reservoir after a drop (rule R206). -/
theorem drop_res_toNat (n : Nat) (s : State) : (drop n s).res.toNat = s.res.toNat / 2 ^ n := by
  rw [drop_res, BitVec.toNat_ushiftRight, Nat.shiftRight_eq_div_pow]

theorem StorageInv.drop {n : Nat} {s : State} (h : StorageInv s) (le : n ≤ s.bc.toNat) : StorageInv (drop n s) where
  mem := h.mem
  clens := h.clens
  lens := h.lens
  lt := h.lt
  dt := h.dt
  ct := h.ct
  window := h.window
  bc := by have := h.bc; rw [drop_bc_toNat le]; omega
  res := by
    rw [drop_bc_toNat le, drop_res_toNat]
    have := h.res
    rw [Nat.div_lt_iff_lt_mul (by positivity), ← pow_add]
    rwa [Nat.sub_add_cancel le]
  wCount := h.wCount

/-- The fill of the reservoir after a pull (rule R202). -/
theorem takeByte_bc_toNat {s : State} (room : s.bc.toNat + 8 ≤ 64) : (takeByte s).bc.toNat = s.bc.toNat + 8 := by
  rw [takeByte_bc]
  bv_omega

/-- The reservoir after a pull: the byte stands above the bits that were held (rules R201, R202). -/
theorem takeByte_res_toNat {s : State} (room : s.bc.toNat + 8 ≤ 64) (clear : s.res.toNat < 2 ^ s.bc.toNat) :
    (takeByte s).res.toNat = s.res.toNat + 2 ^ s.bc.toNat * (sourceByte s).toNat := by
  have hb := (sourceByte s).isLt
  have hz : ((sourceByte s).setWidth 64 <<< s.bc.toNat).toNat = 2 ^ s.bc.toNat * (sourceByte s).toNat := by
    rw [BitVec.toNat_shiftLeft, BitVec.toNat_setWidth, Nat.mod_eq_of_lt (a := (sourceByte s).toNat) (by omega),
      Nat.shiftLeft_eq, Nat.mul_comm]
    apply Nat.mod_eq_of_lt
    calc 2 ^ s.bc.toNat * (sourceByte s).toNat < 2 ^ s.bc.toNat * 2 ^ 8 := by
          apply Nat.mul_lt_mul_of_pos_left hb; positivity
      _ = 2 ^ (s.bc.toNat + 8) := by rw [pow_add]
      _ ≤ 2 ^ 64 := Nat.pow_le_pow_right (by norm_num) room
  rw [takeByte_res, BitVec.toNat_or, hz, Nat.or_comm, ← Nat.two_pow_add_eq_or_of_lt clear, Nat.add_comm]

theorem StorageInv.takeByte {s : State} (h : StorageInv s) (room : s.bc.toNat + 8 ≤ 64) : StorageInv (takeByte s) where
  mem := h.mem
  clens := h.clens
  lens := h.lens
  lt := h.lt
  dt := h.dt
  ct := h.ct
  window := h.window
  bc := by rw [takeByte_bc_toNat room]; exact room
  res := by
    rw [takeByte_bc_toNat room, takeByte_res_toNat room h.res, pow_add]
    have hr := h.res
    have hb := (sourceByte s).isLt
    have : 2 ^ s.bc.toNat * (sourceByte s).toNat ≤ 2 ^ s.bc.toNat * 255 := Nat.mul_le_mul_left _ (by omega)
    omega
  wCount := h.wCount

theorem StorageInv.storeByte {s : State} (h : StorageInv s) (v : Byte) : StorageInv (storeByte v s) where
  mem := Memory.wf_write h.mem _ _
  clens := h.clens
  lens := h.lens
  lt := h.lt
  dt := h.dt
  ct := h.ct
  window := h.window
  bc := h.bc
  res := h.res
  wCount := h.wCount

theorem StorageInv.setWindow {s : State} (h : StorageInv s) (i : BitVec 15) (v : Byte) : StorageInv (setWindow i v s) where
  mem := h.mem
  clens := h.clens
  lens := h.lens
  lt := h.lt
  dt := h.dt
  ct := h.ct
  window := Ram.wf_write h.window _ _
  bc := h.bc
  res := h.res
  wCount := h.wCount

theorem StorageInv.setClen {s : State} (h : StorageInv s) (i : Nat) (v : BitVec 3) : StorageInv (setClen i v s) where
  mem := h.mem
  clens := Ram.wf_write h.clens _ _
  lens := h.lens
  lt := h.lt
  dt := h.dt
  ct := h.ct
  window := h.window
  bc := h.bc
  res := h.res
  wCount := h.wCount

theorem StorageInv.pushLen {s : State} (h : StorageInv s) (v : BitVec 4) : StorageInv (pushLen v s) where
  mem := h.mem
  clens := h.clens
  lens := Ram.wf_write h.lens _ _
  lt := h.lt
  dt := h.dt
  ct := h.ct
  window := h.window
  bc := h.bc
  res := h.res
  wCount := h.wCount

theorem StorageInv.pushLens {s : State} (h : StorageInv s) (r : Nat) (v : BitVec 4) : StorageInv (pushLens r v s) := by
  induction r generalizing s with
  | zero => exact h
  | succ r ih => exact ih (h.pushLen v)

theorem StorageInv.foldBytes {s : State} (h : StorageInv s) (k i : Nat) : StorageInv (foldBytes k i s) := by
  induction k generalizing i s with
  | zero => exact h
  | succ k ih =>
    refine ih ?_ (i + 1)
    exact (h.setWindow s.wEnd _).congr rfl rfl rfl rfl rfl rfl rfl rfl rfl rfl

theorem StorageInv.fold {s : State} (h : StorageInv s) : StorageInv (fold s) := by
  have f := h.foldBytes (min (produced s) Config.wsize) (produced s - Config.wsize)
  exact
    { mem := f.mem, clens := f.clens, lens := f.lens, lt := f.lt, dt := f.dt, ct := f.ct, window := f.window
      bc := f.bc, res := f.res
      wCount := by
        have e : (Machine.fold s).wCount = BitVec.ofNat 16 (min Config.wsize (s.wCount.toNat + produced s)) := rfl
        rw [e, BitVec.toNat_ofNat]
        exact (Nat.mod_le _ _).trans (min_le_left _ _) }

theorem StorageInv.installBytes {s : State} (h : StorageInv s) (k i : Nat) (a : Word) : StorageInv (installBytes k i a s) := by
  induction k generalizing i a s with
  | zero => exact h
  | succ k ih => exact ih (h.setWindow _ _) (i + 1) (a + 1)

theorem StorageInv.install {s : State} (h : StorageInv s) : StorageInv (install s) := by
  have f := h.installBytes (min s.dictLen.toNat Config.wsize) 0
    (s.dictPtr + s.dictLen - BitVec.ofNat 32 (min s.dictLen.toNat Config.wsize))
  exact
    { mem := f.mem, clens := f.clens, lens := f.lens, lt := f.lt, dt := f.dt, ct := f.ct, window := f.window
      bc := f.bc, res := f.res
      wCount := by
        have e : (Machine.install s).wCount = BitVec.ofNat 16 (min s.dictLen.toNat Config.wsize) := rfl
        rw [e, BitVec.toNat_ofNat]
        exact (Nat.mod_le _ _).trans (min_le_right _ _) }

/-- The reservoir width is at most 64 (rule R6). -/
theorem resWidth_le : Config.resWidth.bits ≤ 64 := by
  cases Config.resWidth <;> decide

theorem StorageInv.raise {s : State} (h : StorageInv s) (c : ErrCode) : StorageInv (raise c s) where
  mem := unspecifiedTarget_wf _ _ _ h.mem
  clens := h.clens
  lens := h.lens
  lt := h.lt
  dt := h.dt
  ct := h.ct
  window := by rw [raise_window]; exact Ram.wf_ofFn _ _ _
  bc := by
    rw [raise_bc, BitVec.toNat_ofNat]
    exact (Nat.mod_le _ _).trans ((min_le_right _ _).trans resWidth_le)
  res := by
    have b : min (Config.freeBc s.draws) Config.resWidth.bits ≤ 64 := (min_le_right _ _).trans resWidth_le
    rw [raise_bc, raise_res, BitVec.toNat_ofNat, BitVec.toNat_ofNat, Nat.mod_eq_of_lt (a := min _ _) (by omega)]
    exact (Nat.mod_le _ _).trans_lt (Nat.mod_lt _ (by positivity))
  wCount := by
    rw [raise_wCount, BitVec.toNat_ofNat]
    exact (Nat.mod_le _ _).trans (min_le_left _ _)

theorem StorageInv.resetRegisters {s : State} (h : StorageInv s) : StorageInv (resetRegisters s) where
  mem := h.mem
  clens := h.clens
  lens := h.lens
  lt := h.lt
  dt := h.dt
  ct := h.ct
  window := h.window
  bc := by simp
  res := by simp
  wCount := by simp [Config.wsize]

end Sys2Proof.Machine
end

