-- ==== Sys2Proof/Tests/Slice0.lean ====
section
/-! SUPPORT. The package's own tests. Expected values come from the vectors of 95_test_vectors.md and the encodings of 30_encoding.md, not from the model. A theorem named `test_witness_…` shows that the hypotheses of the statement it names can be met together. -/

namespace Sys2Proof.Tests

open Sys2Proof Sys2Proof.Machine

/-! ## Helpers -/

/-- The next state of a result, if there is one. -/
def nextOf (r : Result) : Option State :=
  match r with
  | .next s => some s
  | .fault _ => none
  | .refused _ => none

/-- Bytes of host memory from an address on, for a test. -/
def memOf (a : Word) (bs : List Byte) : Memory := pokeBytes bs a []

/-- A core inside an INFLATE, source at 0x1000, target of 16 bytes at 0x2000. -/
def running (b : BState) (src : List Byte) : State :=
  { State.reset with
    bstate := b, inflating := some false, consumedAny := true
    srcPtr := 0x1000, srcLen := BitVec.ofNat 32 src.length, dstPtr := 0x2000, dstLen := 16, tbegin := 0x2000
    mem := memOf 0x1000 src }

/-- A core between commands, after RESET, with one action of the host to take. -/
def hostAt (a : HostAction) : State :=
  { State.reset with bstate := .needHeader, hostQueue := [a] }

/-! ## WellFormed: an ill-formed term for its one check (rule R62) -/

theorem test_reserved_command_1_is_ill_formed : (Instr.cmdReserved 0x01).wellFormed = false := by decide
theorem test_reserved_command_2_is_ill_formed : (Instr.cmdReserved 0x02).wellFormed = false := by decide
theorem test_reserved_command_3_is_ill_formed : (Instr.cmdReserved 0x03).wellFormed = false := by decide
theorem test_reserved_command_4_is_well_formed : (Instr.cmdReserved 0x04).wellFormed = true := by decide

/-! ## Decoding: words written out from the spec's encodings, first stream bit first -/

/-- Rule R121: BFINAL, BTYPE low bit, BTYPE high bit. -/
theorem test_decode_headers :
    decode tableBook .hdr (bitsVal [true, false, false]) 3 = .elem (.blockStored true) 3 ∧
    decode tableBook .hdr (bitsVal [false, true, false]) 3 = .elem (.blockFixed false) 3 ∧
    decode tableBook .hdr (bitsVal [true, false, true]) 3 = .elem (.blockDynamic true) 3 ∧
    decode tableBook .hdr (bitsVal [false, true, true]) 3 = .elem (.blockReserved false) 3 := by decide

/-- Rules R83, R123: LEN and NLEN, low byte first. -/
theorem test_decode_stored_header :
    decodeBytes tableBook .storedHdr [0x34, 0x12, 0xcb, 0xed] = .elem (.storedhdr 0x1234 0xedcb) 32 := by decide

/-- The counts of P7: HLIT' 2, HDIST' 5, HCLEN' 14 (rule R340). -/
theorem test_decode_counts :
    decode tableBook .dynHdr (bitsVal ([false, true, false, false, false] ++ [true, false, true, false, false] ++ [false, true, true, true])) 14 =
      .elem (.dynhdr 2 5 14) 14 := by decide

/-- A 3-bit code length of 6 (rule R125). -/
theorem test_decode_code_length_length :
    decode tableBook .cll (bitsVal [false, true, true]) 3 = .elem (.cll 6) 3 := by decide

/-- The code-length code of vectors Y13 to Y16: symbols 0, 1, 2 and 18 with codes 00, 01, 10 and 11. -/
def tinyClLens : List Nat := [2, 2, 2] ++ List.replicate 15 0 ++ [2]

/-- Its table. -/
def tinyBook : Codebook := { tableBook with ct := Ram.read Entry.zero ((build .codes tinyClLens []).getD []) }

/-- Rule R127: CL2 is code 10; REP18 is code 11 and 7 extra bits. -/
theorem test_decode_code_length_symbols :
    decode tinyBook .clsym (bitsVal [true, false]) 2 = .elem .cl2 2 ∧
    decode tinyBook .clsym (bitsVal ([true, true] ++ [true, false, true, false, true, true, false])) 9 = .elem (.rep18 0x35) 9 ∧
    decode tinyBook .clsym (bitsVal [true, true, true]) 3 = .short := by decide

/-- Rule R131: EOB 0000000, 'P' 10000000, literal 144 110010000, symbol 286 11000110, symbol 287 11000111. -/
theorem test_decode_literal_length_codes :
    decode tableBook .ll (bitsVal (List.replicate 7 false)) 7 = .elem .eob 7 ∧
    decode tableBook .ll (bitsVal [true, false, false, false, false, false, false, false]) 8 = .elem (.lit 0x50) 8 ∧
    decode tableBook .ll (bitsVal [true, true, false, false, true, false, false, false, false]) 9 = .elem (.lit 144) 9 ∧
    decode tableBook .ll (bitsVal [true, true, false, false, false, true, true, false]) 8 = .elem .ll286Invalid 8 ∧
    decode tableBook .ll (bitsVal [true, true, false, false, false, true, true, true]) 8 = .elem .ll287Invalid 8 := by decide

/-- LEN 280, 15 is code 11000000 and extra bits 1111 (rules R131, R410); its symbol alone is short. -/
theorem test_decode_length_symbol :
    decode tableBook .ll (bitsVal ([true, true, false, false, false, false, false, false] ++ [true, true, true, true])) 12 =
      .elem (.len280 15) 12 ∧
    decode tableBook .ll (bitsVal [true, true, false, false, false, false, false, false]) 8 = .short := by decide

/-- DIST 4, 1 is code 00100 and extra bit 1 (rules R132, R423); 11110 is no distance symbol (rule R449). -/
theorem test_decode_distance_symbol :
    decode tableBook .dist (bitsVal ([false, false, true, false, false] ++ [true])) 6 = .elem (.dist4 1) 6 ∧
    decode tableBook .dist (bitsVal [true, true, true, true, false]) 5 = .elem .dist30Invalid 5 ∧
    decode tableBook .dist (bitsVal [true, true, true, true, true]) 5 = .elem .dist31Invalid 5 := by decide

/-- Rule R139: the commands; CMD[31:9] is ignored (rule R62). -/
theorem test_decode_commands :
    decodeHostWrite 0x00 0x00000001 = some .reset ∧ decodeHostWrite 0x00 0xfffffe02 = some .setDictionary ∧
    decodeHostWrite 0x00 0x00000003 = some (.inflate false) ∧ decodeHostWrite 0x00 0x00000103 = some (.inflate true) ∧
    decodeHostWrite 0x00 0x00000100 = some (.cmdReserved 0x00) ∧ decodeHostWrite 0x08 5 = some (.setSource .ptr 5) ∧
    decodeHostWrite 0x14 5 = some (.setTarget .len 5) ∧ decodeHostWrite 0x04 5 = none ∧ decodeHostWrite 0x18 5 = none := by
  decide

/-! ## Every stream constructor by a word written out from its encoding, first stream bit first; an element with extra bits has the first of them 1 and the others 0 -/

/-- These bits, whole, are this instruction. -/
def spells (T : Codebook) (p : Position) (bs : List Nat) (i : Instr) : Bool :=
  decode T p (bitsVal (bs.map fun b => b == 1)) bs.length == .elem i bs.length

/-- The fixed codes of rules R387 to R398. -/
theorem test_words_len257_to_len268 :
    ([([0, 0, 0, 0, 0, 0, 1], .len257),
      ([0, 0, 0, 0, 0, 1, 0], .len258),
      ([0, 0, 0, 0, 0, 1, 1], .len259),
      ([0, 0, 0, 0, 1, 0, 0], .len260),
      ([0, 0, 0, 0, 1, 0, 1], .len261),
      ([0, 0, 0, 0, 1, 1, 0], .len262),
      ([0, 0, 0, 0, 1, 1, 1], .len263),
      ([0, 0, 0, 1, 0, 0, 0], .len264),
      ([0, 0, 0, 1, 0, 0, 1, 1], .len265 1),
      ([0, 0, 0, 1, 0, 1, 0, 1], .len266 1),
      ([0, 0, 0, 1, 0, 1, 1, 1], .len267 1),
      ([0, 0, 0, 1, 1, 0, 0, 1], .len268 1)] : List (List Nat × Instr)).all (fun r => spells tableBook .ll r.1 r.2) = true := by decide

/-- The fixed codes of rules R399 to R415. -/
theorem test_words_len269_to_len285 :
    ([([0, 0, 0, 1, 1, 0, 1, 1, 0], .len269 1),
      ([0, 0, 0, 1, 1, 1, 0, 1, 0], .len270 1),
      ([0, 0, 0, 1, 1, 1, 1, 1, 0], .len271 1),
      ([0, 0, 1, 0, 0, 0, 0, 1, 0], .len272 1),
      ([0, 0, 1, 0, 0, 0, 1, 1, 0, 0], .len273 1),
      ([0, 0, 1, 0, 0, 1, 0, 1, 0, 0], .len274 1),
      ([0, 0, 1, 0, 0, 1, 1, 1, 0, 0], .len275 1),
      ([0, 0, 1, 0, 1, 0, 0, 1, 0, 0], .len276 1),
      ([0, 0, 1, 0, 1, 0, 1, 1, 0, 0, 0], .len277 1),
      ([0, 0, 1, 0, 1, 1, 0, 1, 0, 0, 0], .len278 1),
      ([0, 0, 1, 0, 1, 1, 1, 1, 0, 0, 0], .len279 1),
      ([1, 1, 0, 0, 0, 0, 0, 0, 1, 0, 0, 0], .len280 1),
      ([1, 1, 0, 0, 0, 0, 0, 1, 1, 0, 0, 0, 0], .len281 1),
      ([1, 1, 0, 0, 0, 0, 1, 0, 1, 0, 0, 0, 0], .len282 1),
      ([1, 1, 0, 0, 0, 0, 1, 1, 1, 0, 0, 0, 0], .len283 1),
      ([1, 1, 0, 0, 0, 1, 0, 0, 1, 0, 0, 0, 0], .len284 1),
      ([1, 1, 0, 0, 0, 1, 0, 1], .len285)] : List (List Nat × Instr)).all (fun r => spells tableBook .ll r.1 r.2) = true := by decide

/-- The fixed codes of rules R419 to R433. -/
theorem test_words_dist0_to_dist14 :
    ([([0, 0, 0, 0, 0], .dist0),
      ([0, 0, 0, 0, 1], .dist1),
      ([0, 0, 0, 1, 0], .dist2),
      ([0, 0, 0, 1, 1], .dist3),
      ([0, 0, 1, 0, 0, 1], .dist4 1),
      ([0, 0, 1, 0, 1, 1], .dist5 1),
      ([0, 0, 1, 1, 0, 1, 0], .dist6 1),
      ([0, 0, 1, 1, 1, 1, 0], .dist7 1),
      ([0, 1, 0, 0, 0, 1, 0, 0], .dist8 1),
      ([0, 1, 0, 0, 1, 1, 0, 0], .dist9 1),
      ([0, 1, 0, 1, 0, 1, 0, 0, 0], .dist10 1),
      ([0, 1, 0, 1, 1, 1, 0, 0, 0], .dist11 1),
      ([0, 1, 1, 0, 0, 1, 0, 0, 0, 0], .dist12 1),
      ([0, 1, 1, 0, 1, 1, 0, 0, 0, 0], .dist13 1),
      ([0, 1, 1, 1, 0, 1, 0, 0, 0, 0, 0], .dist14 1)] : List (List Nat × Instr)).all (fun r => spells tableBook .dist r.1 r.2) = true := by decide

/-- The fixed codes of rules R434 to R448. -/
theorem test_words_dist15_to_dist29 :
    ([([0, 1, 1, 1, 1, 1, 0, 0, 0, 0, 0], .dist15 1),
      ([1, 0, 0, 0, 0, 1, 0, 0, 0, 0, 0, 0], .dist16 1),
      ([1, 0, 0, 0, 1, 1, 0, 0, 0, 0, 0, 0], .dist17 1),
      ([1, 0, 0, 1, 0, 1, 0, 0, 0, 0, 0, 0, 0], .dist18 1),
      ([1, 0, 0, 1, 1, 1, 0, 0, 0, 0, 0, 0, 0], .dist19 1),
      ([1, 0, 1, 0, 0, 1, 0, 0, 0, 0, 0, 0, 0, 0], .dist20 1),
      ([1, 0, 1, 0, 1, 1, 0, 0, 0, 0, 0, 0, 0, 0], .dist21 1),
      ([1, 0, 1, 1, 0, 1, 0, 0, 0, 0, 0, 0, 0, 0, 0], .dist22 1),
      ([1, 0, 1, 1, 1, 1, 0, 0, 0, 0, 0, 0, 0, 0, 0], .dist23 1),
      ([1, 1, 0, 0, 0, 1, 0, 0, 0, 0, 0, 0, 0, 0, 0, 0], .dist24 1),
      ([1, 1, 0, 0, 1, 1, 0, 0, 0, 0, 0, 0, 0, 0, 0, 0], .dist25 1),
      ([1, 1, 0, 1, 0, 1, 0, 0, 0, 0, 0, 0, 0, 0, 0, 0, 0], .dist26 1),
      ([1, 1, 0, 1, 1, 1, 0, 0, 0, 0, 0, 0, 0, 0, 0, 0, 0], .dist27 1),
      ([1, 1, 1, 0, 0, 1, 0, 0, 0, 0, 0, 0, 0, 0, 0, 0, 0, 0], .dist28 1),
      ([1, 1, 1, 0, 1, 1, 0, 0, 0, 0, 0, 0, 0, 0, 0, 0, 0, 0], .dist29 1)] : List (List Nat × Instr)).all (fun r => spells tableBook .dist r.1 r.2) = true := by decide

/-- The canonical code (rule R236) of the lengths that log entry 12 chooses: 4 bits for symbols 0 to 12, from 0000 on, 5 bits for 13 to 18, from 11010 on; extra bits as rule R127 says. -/
theorem test_words_code_length_symbols :
    ([([0, 0, 0, 0], .cl0),
      ([0, 0, 0, 1], .cl1),
      ([0, 0, 1, 0], .cl2),
      ([0, 0, 1, 1], .cl3),
      ([0, 1, 0, 0], .cl4),
      ([0, 1, 0, 1], .cl5),
      ([0, 1, 1, 0], .cl6),
      ([0, 1, 1, 1], .cl7),
      ([1, 0, 0, 0], .cl8),
      ([1, 0, 0, 1], .cl9),
      ([1, 0, 1, 0], .cl10),
      ([1, 0, 1, 1], .cl11),
      ([1, 1, 0, 0], .cl12),
      ([1, 1, 0, 1, 0], .cl13),
      ([1, 1, 0, 1, 1], .cl14),
      ([1, 1, 1, 0, 0], .cl15),
      ([1, 1, 1, 0, 1, 1, 0], .rep16 1),
      ([1, 1, 1, 1, 0, 1, 0, 0], .rep17 1),
      ([1, 1, 1, 1, 1, 1, 0, 0, 0, 0, 0, 0], .rep18 1)] : List (List Nat × Instr)).all (fun r => spells tableBook .clsym r.1 r.2) = true := by decide

/-! ## Tables (vectors of section 2.2) -/

/-- The slots of T2, {1, 2, 2}. -/
theorem test_build_T2 :
    ((build .codes [1, 2, 2] []).map fun T => [0, 1, 3, 125, 126, 127].map (Ram.read Entry.zero T)) =
      some [Entry.of 0x10 0 1, Entry.of 0x10 1 2, Entry.of 0x10 2 2, Entry.of 0x10 1 2, Entry.of 0x10 0 1, Entry.of 0x10 2 2] := by
  decide

/-- T1, T3 and T6 fail. -/
theorem test_build_fails :
    build .codes [1, 1, 1] [] = none ∧ build .lens (1 :: List.replicate 287 0) [] = none ∧ build .dists [2] [] = none := by decide +kernel

/-- T4 and T5: one distance code of length 1, and none. -/
theorem test_build_permitted_incomplete :
    ((build .dists (1 :: List.replicate 29 0) []).map fun T => [0, 1, 126, 127].map (Ram.read Entry.zero T)) =
      some [Entry.of 0 1 1, Entry.of 0x13 0 1, Entry.of 0 1 1, Entry.of 0x13 0 1] ∧
    ((build .dists (List.replicate 30 0) []).map fun T => [0, 127].map (Ram.read Entry.zero T)) =
      some [Entry.of 0x13 0 1, Entry.of 0x13 0 1] := by decide

/-- The lengths of T8. -/
def t8Lens : List Nat := [1, 2, 3, 4, 5, 6, 7, 8, 9, 10] ++ List.replicate 246 0 ++ [10]

/-- The subtable of T8: `T[0x1ff]`, `T[512]` and `T[513]`, and a lookup through them. -/
theorem test_build_T8_subtable :
    (let cs := symCodes t8Lens
     let subs := subtables 9 cs
     subs.2 = 514 ∧ tableSlot .lens cs subs.1 0x0ff = Entry.of 0x10 8 9 ∧ tableSlot .lens cs subs.1 0x1ff = Entry.of 0x12 512 10 ∧
       tableSlot .lens cs subs.1 512 = Entry.of 0x10 9 10 ∧ tableSlot .lens cs subs.1 513 = Entry.of 0x11 0 10 ∧
       lookup (tableSlot .lens cs subs.1) 9 0x3ff = Entry.of 0x11 0 10) := by decide +kernel

/-- The samples of the fixed ROMs. -/
theorem test_fixed_rom_samples :
    [0x000, 0x030, 0x00c, 0x001, 0x003, 0x11e, 0x00f, 0x1ff].map ltFixed =
      [Entry.of 0x11 0 7, Entry.of 0 8 7, Entry.of 0x10 0 8, Entry.of 0x10 80 8, Entry.of 4 115 8, Entry.of 0x10 72 8,
        Entry.of 0x10 224 9, Entry.of 0x10 255 9] ∧
    [0x00, 0x10, 0x01, 0x07, 0x0f].map dtFixed =
      [Entry.of 0 1 5, Entry.of 0 2 5, Entry.of 7 257 5, Entry.of 13 16385 5, Entry.of 0x13 0 5] := by decide

/-! ## One step each: the trace of section 2.1, `f3 48 cd c9 c9 07 00` -/

/-- HEADER: takes `f3`, leaves `res = 0x1e`, `bc = 5`. -/
theorem test_trace_header :
    ((nextOf (step (running .needHeader [0xf3, 0x48]))).map fun t => (t.res, t.bc, t.srcPtr, t.bfinal, t.bstate)) =
      some (0x1e, 5, 0x1001, true, .fixed) := by decide

/-- FIXED-SELECT. -/
theorem test_trace_fixed_select :
    ((nextOf (step { running .fixed [0x48] with res := 0x1e, bc := 5 })).map fun t => (t.res, t.bc, t.bstate, t.tsel, t.sub)) =
      some (0x1e, 5, .decoding, .fixed, .litLen) := by decide

/-- DEC-LSYM: takes `48`, holds 'H', leaves `res = 0x9`, `bc = 5`. -/
theorem test_trace_literal :
    ((nextOf (step { running .decoding [0x48, 0xcd] with res := 0x1e, bc := 5 })).map fun t =>
      (t.res, t.bc, t.srcPtr, t.litPending, t.auxLen)) = some (0x9, 5, 0x1001, true, 0x48) := by decide

/-- DEC-EMIT writes `48`. -/
theorem test_trace_emit :
    ((nextOf (step { running .decoding [] with litPending := true, auxLen := 0x48 })).map fun t =>
      (t.dstPtr, t.dstLen, t.litPending, Memory.read t.mem 0x2000)) = some (0x2001, 15, false, 0x48) := by decide

/-- The last DEC-LSYM: takes `00`, EOB of the final block, OK with `bc = 6`. -/
theorem test_trace_end :
    ((nextOf (step { running .decoding [0x00] with res := 0, bc := 5, bfinal := true })).map fun t =>
      (t.bc, t.srcPtr, t.bstate, t.status, t.inflating)) = some (6, 0x1001, .finalConsumed, .ok, none) := by decide

/-- B2: LEN and half of NLEN, then the source ends; 24 bits stay. -/
theorem test_suspend_keeps_partial_bits :
    ((nextOf (step { running .stored [0x01, 0x00, 0xfe] with res := 0, bc := 5 })).map fun t =>
      (t.bc, t.srcLen, t.status, t.bstate, t.inflating)) = some (24, 0, .sourceExhausted, .stored, none) := by decide

/-- B4: the same with FINAL_INPUT raises INPUT_END. -/
theorem test_input_end :
    ((nextOf (step { running .stored [0x01, 0x00, 0xfe] with inflating := some true, dstLen := 0 })).map fun t =>
      (t.bstate, t.err, t.status, t.inflating)) = some (.bad, .inputEnd, .error, none) := by decide

/-- A length symbol whose extra bits are missing waits in substate 1 (rules R386, R417): LEN 284 of X5 with one byte. -/
theorem test_suspend_in_length_extra_bits :
    ((nextOf (step (running .decoding [0x23]))).map fun t => (t.sub, t.auxLen, t.auxExtra, t.bc, t.status)) =
      some (.lenExtra, 227, 5, 0, .sourceExhausted) := by decide

/-! ## Instructions -/

theorem test_block_reserved :
    ((nextOf (exec (.blockReserved true) { running .needHeader [] with dstLen := 0 })).map fun t => (t.bstate, t.err, t.status, t.bfinal)) =
      some (.bad, .badBlock, .error, true) := by decide

/-- H3: LEN 1, NLEN 0xff02. -/
theorem test_stored_header_mismatch :
    ((nextOf (exec (.storedhdr 0x0001 0xff02) { running .stored [] with dstLen := 0 })).map fun t => (t.bstate, t.err)) =
      some (.bad, .badBlock) := by decide

theorem test_stored_header :
    ((nextOf (exec (.storedhdr 0x0001 0xfffe) (running .stored []))).map fun t => (t.srem, t.sphase)) = some (1, .copy) := by decide

/-- H5, first call: two bytes to copy and room for one. -/
theorem test_stored_data_suspends :
    ((nextOf (exec .storedData { running .stored [0x41, 0x42] with sphase := .copy, srem := 2, dstLen := 1 })).map fun t =>
      (Memory.read t.mem 0x2000, t.srem, t.srcLen, t.dstLen, t.status)) = some (0x41, 1, 1, 0, .targetExhausted) := by decide

/-- P1: the stored bytes `61 62 63`, and the block ends. -/
theorem test_stored_data :
    ((nextOf (exec .storedData { running .stored [0x61, 0x62, 0x63] with sphase := .copy, srem := 3 })).map fun t =>
      ([0x2000, 0x2001, 0x2002].map (Memory.read t.mem), t.srem, t.bstate)) = some ([0x61, 0x62, 0x63], 0, .needHeader) := by decide

/-- Y2 and Y1: HLIT 286 is accepted, 287 is not. -/
theorem test_counts :
    ((nextOf (exec (.dynhdr 29 0 0) (running .dynamic []))).map fun t => (t.hlit, t.hdist, t.hclen, t.dphase)) =
      some (286, 1, 4, .clens) ∧
    ((nextOf (exec (.dynhdr 30 0 0) { running .dynamic [] with dstLen := 0 })).map fun t => (t.bstate, t.err)) =
      some (.bad, .badTree) := by decide

/-- The fourth length goes to symbol 0 (rule R342). -/
theorem test_code_length_length :
    ((nextOf (exec (.cll 5) { running .dynamic [] with dphase := .clens, idx := 3, hclen := 4 })).map fun t =>
      (t.clens, t.idx)) = some ([(0, 5)], 4) := by decide

/-- `CL 3` at `idx = 97` (rule R345). -/
theorem test_code_length_symbol :
    ((nextOf (exec .cl3 { running .dynamic [] with dphase := .lens, idx := 97, hlit := 259, hdist := 6 })).map fun t =>
      (t.lens, t.idx)) = some ([(97, 3)], 98) := by decide

/-- Extra bits 0b11 repeat 8 six times (rule R346); Y7: no previous length. -/
theorem test_rep16 :
    ((nextOf (exec (.rep16 3) { running .dynamic [] with dphase := .lens, idx := 1, hlit := 257, hdist := 1, lens := [(0, 8)] })).map fun t =>
      (t.lens, t.idx, t.dphase)) = some ([(0, 8), (1, 8), (2, 8), (3, 8), (4, 8), (5, 8), (6, 8)], 7, .lens) ∧
    ((nextOf (exec (.rep16 0) { running .dynamic [] with idx := 0, hlit := 257, hdist := 1, dstLen := 0 })).map fun t => (t.bstate, t.err)) =
      some (.bad, .badTree) := by decide

/-- Y8: two repeats of 138 pass 258; Y9: 138 and 120 end exactly there. -/
theorem test_rep18 :
    ((nextOf (exec (.rep18 127) { running .dynamic [] with idx := 138, hlit := 257, hdist := 1, dstLen := 0 })).map fun t => (t.bstate, t.err)) =
      some (.bad, .badTree) ∧
    ((nextOf (exec (.rep18 109) { running .dynamic [] with idx := 138, hlit := 257, hdist := 1 })).map fun t => (t.idx, t.dphase)) =
      some (258, .lens) := by decide +kernel

theorem test_rep17 :
    ((nextOf (exec (.rep17 0) { running .dynamic [] with idx := 1, hlit := 257, hdist := 1, lens := [(0, 8), (1, 7), (5, 2)] })).map fun t =>
      (t.lens, t.idx)) = some ([(0, 8), (5, 2)], 4) := by decide

/-- The lengths of the table of section 2.6 at the largest extra value. -/
theorem test_length_values :
    ([.len257, .len264, .len265 1, .len268 1, .len269 3, .len272 3, .len273 7, .len276 7, .len277 15, .len278 15, .len279 15,
        .len280 15, .len281 31, .len284 31, .len285] : List Instr).map (fun i => (nextOf (exec i (running .decoding []))).map fun t => t.auxLen) =
      [3, 10, 12, 18, 22, 34, 42, 66, 82, 98, 114, 130, 162, 258, 258].map some := by decide

/-- The distances of section 2.6 at the largest extra value, with the full window. -/
theorem test_distance_values :
    ([.dist0, .dist3, .dist4 1, .dist7 3, .dist10 15, .dist16 127, .dist19 255, .dist22 1023, .dist25 2047, .dist28 8191, .dist29 8191] : List Instr).map
        (fun i => (nextOf (exec i { running .decoding [] with wCount := 32768 })).map fun t => (t.auxDist, t.sub)) =
      ([1, 4, 6, 16, 48, 384, 1024, 3072, 8192, 24576, 32768] : List (BitVec 16)).map fun d => some (d, Substate.copy) := by decide

/-- W6: distance 1 with no history. W8: distance 2 with one byte of output. -/
theorem test_far_offset :
    ((nextOf (exec .dist0 { running .decoding [] with dstLen := 0 })).map fun t => (t.bstate, t.err)) = some (.bad, .farOffset) ∧
    ((nextOf (exec .dist1 { running .decoding [] with dstPtr := 0x2001, dstLen := 0 })).map fun t => (t.bstate, t.err)) =
      some (.bad, .farOffset) ∧
    ((nextOf (exec .dist0 { running .decoding [] with dstPtr := 0x2001 })).map fun t => t.sub) = some .copy := by decide

/-- X1 to X4. -/
theorem test_invalid_symbols :
    ([.ll286Invalid, .ll287Invalid, .dist30Invalid, .dist31Invalid] : List Instr).map
        (fun i => (nextOf (exec i { running .decoding [] with dstLen := 0 })).map fun t => (t.bstate, t.err)) =
      List.replicate 4 (some (.bad, .badCode)) := by decide

/-- W7: 'a', then length 3 at distance 1. -/
theorem test_overlapping_copy :
    ((nextOf (step { running .decoding [] with
        sub := .copy, auxLen := 3, auxDist := 1, dstPtr := 0x2001, mem := memOf 0x2000 [0x61] })).map fun t =>
      ([0x2001, 0x2002, 0x2003].map (Memory.read t.mem), t.auxLen, t.sub)) = some ([0x61, 0x61, 0x61], 0, .litLen) := by decide

/-- A copy across the wrap of the window (rule R289), as in W5: with `w_end = 1`, distance 2 starts at `W[32767]`. -/
theorem test_window_wrap_copy :
    ((nextOf (step { running .decoding [] with
        sub := .copy, auxLen := 2, auxDist := 2, wEnd := 1, wCount := 2, window := [(0, 0x18), (32767, 0xff)] })).map fun t =>
      [0x2000, 0x2001].map (Memory.read t.mem)) = some [0xff, 0x18] := by decide

/-- S1 and S2. -/
theorem test_commands_before_reset :
    ((nextOf (exec (.inflate false) State.reset)).map fun t => (t.bstate, t.err, t.status)) = some (.bad, .badState, .error) ∧
    ((nextOf (exec .setDictionary State.reset)).map fun t => (t.bstate, t.err, t.status)) = some (.bad, .badState, .error) := by decide

/-- RESET from BAD. -/
theorem test_reset :
    ((nextOf (exec .reset { State.reset with bstate := .bad, err := .badTree, status := .error, srcPtr := 0x1002, bc := 3, wCount := 7 })).map
      fun t => (t.bstate, t.err, t.status, t.srcPtr, t.bc, t.wCount)) = some (.needHeader, .none, .ok, 0x1002, 0, 0) := by decide

/-- S7: INFLATE after the end changes nothing. -/
theorem test_inflate_after_the_end :
    nextOf (exec (.inflate true) { State.reset with bstate := .finalConsumed }) = some { State.reset with bstate := .finalConsumed } := by
  decide

/-- S4: INFLATE in BAD. -/
theorem test_inflate_in_bad :
    ((nextOf (exec (.inflate true) { State.reset with bstate := .bad, err := .badState })).map fun t => (t.bstate, t.err, t.status)) =
      some (.bad, .badState, .error) := by decide

theorem test_inflate_begins :
    ((nextOf (exec (.inflate true) { State.reset with bstate := .needHeader, dstPtr := 0x2000 })).map fun t => (t.tbegin, t.inflating)) =
      some (0x2000, some true) := by decide

/-- W2: a dictionary "xyz". -/
theorem test_set_dictionary :
    ((nextOf (exec .setDictionary { State.reset with
        bstate := .needHeader, dictPtr := 0x8000, dictLen := 3, mem := memOf 0x8000 [0x78, 0x79, 0x7a], window := [(0, 0x40)] })).map fun t =>
      (t.window, t.wCount, t.wEnd, t.status)) = some ([(0, 0x78), (1, 0x79), (2, 0x7a)], 3, 3, .ok) := by decide

/-- S3: a dictionary after input. -/
theorem test_set_dictionary_too_late :
    ((nextOf (exec .setDictionary { State.reset with bstate := .decoding, consumedAny := true })).map fun t => (t.bstate, t.err)) =
      some (.bad, .badState) := by decide

/-- A span that ends at 2^32 is legal, one byte more is refused (rule R86). -/
theorem test_span_at_the_top :
    ((nextOf (exec (.inflate false) { State.reset with bstate := .needHeader, dstPtr := 0xffffffff, dstLen := 1 })).map fun t => t.tbegin) =
      some 0xffffffff ∧
    nextOf (exec (.inflate false) { State.reset with bstate := .needHeader, dstPtr := 0xffffffff, dstLen := 2 }) = none := by decide

/-- Rules R86 and R96 in UNINIT and FINAL_CONSUMED, and a late dictionary that wraps: refused. -/
theorem test_refused_before_the_state_check :
    exec (.inflate false) { State.reset with dstPtr := 0xffffffff, dstLen := 2 } = .refused .targetSpanWraps ∧
    exec (.inflate true) { State.reset with bstate := .finalConsumed, srcPtr := 0x2001, srcLen := 1, dstPtr := 0x2000, dstLen := 2 } =
      .refused .sourceTargetOverlap ∧
    exec .setDictionary { State.reset with bstate := .decoding, consumedAny := true, dictPtr := 0xffffffff, dictLen := 2 } =
      .refused .dictSpanWraps := ⟨rfl, rfl, rfl⟩

/-- RESULT after ERROR with BAD_TREE: STATUS 3, ERR 4 (rule R63). -/
theorem test_result_word : resultWord { State.reset with status := .error, err := .badTree } = 0x43 := by decide

/-- A host write to SRC_LEN, a read of RESULT, and an access that is no word (rule R61). -/
theorem test_host_accesses :
    ((nextOf (step (hostAt (.write 0x0C .word 7)))).map fun t => (t.srcLen, t.hostQueue)) = some (7, []) ∧
    ((nextOf (step { hostAt (.read 0x04 .word) with status := .targetExhausted })).map fun t => t.readback) = some 2 ∧
    nextOf (step (hostAt (.write 0x0C .half 7))) = none ∧ nextOf (step (hostAt (.read 0x06 .word))) = none := by decide

/-- A word of the opcode table is fetched and run by the very next step. -/
theorem test_fetch_word :
    ((nextOf (step (State.withFetchWord State.reset 8 1))).map fun t => t.bstate) = some .needHeader ∧
    ((nextOf (step (State.withFetchWord State.reset 16 0x109))).map fun t => (t.auxLen, t.sub)) = some (11, .distSym) ∧
    ((nextOf (step (State.withFetchWord State.reset 3 2))).map fun t => t.bstate) = some .fixed := by decide

/-! ## Witnesses: the hypotheses of each statement, met together -/

theorem test_witness_DecodeInvertsEncode :
    (Instr.cmdReserved 0x00).wellFormed = true ∧ (Instr.cmdReserved 0xff).wellFormed = true ∧ (Instr.dist29 8191).wellFormed = true := by
  decide

theorem test_witness_DecodedInstructionsAreWellFormed :
    decode tableBook .ll 0 7 = .elem .eob 7 ∧ decodeHostWrite 0x00 0x04 = some (.cmdReserved 0x04) := by decide

/-- A short code, and one with two codes of 15 bits. -/
theorem test_witness_CanonicalCodesArePrefixFree :
    ([[1, 2, 2], (List.range 15).map (· + 1) ++ [15]] : List (List Nat)).all (fun L =>
      L.all (· ≤ 15) && !overSubscribed L && decide (1 < L.length) && L.getD 0 0 != 0 && decide (L.getD 0 0 ≤ L.getD (L.length - 1) 0)) =
      true := by decide

/-- A root entry, an entry behind a subtable, and a one-code distance table. -/
theorem test_witness_LookupReturnsTheSymbol :
    ((build .codes [1, 2, 2] []).isSome = true ∧ 1 % 2 ^ 2 = rev 2 (canonicalCode [1, 2, 2] 1)) ∧
    ((build .lens t8Lens []).isSome = true ∧ t8Lens.all (· ≤ 15) = true ∧ t8Lens.getD 256 0 = 10 ∧
      0x3ff % 2 ^ 10 = rev 10 (canonicalCode t8Lens 256)) ∧
    ((build .dists [1] []).isSome = true ∧ 2 % 2 ^ 1 = rev 1 (canonicalCode [1] 0)) := by decide +kernel

theorem test_witness_BuiltTablesAreTotal :
    (build .lens t8Lens []).isSome = true ∧ t8Lens.all (· ≤ 15) = true := by decide +kernel

/-- At the fullest reservoir that has room. -/
theorem test_witness_PullPlacesTheNextByte :
    let s := { State.reset with bc := 56, res := 0x00ffffffffffffff }
    s.bc.toNat + 8 ≤ 64 ∧ s.res.toNat < 2 ^ s.bc.toNat := by decide

/-- None and all of a full reservoir. -/
theorem test_witness_DropDiscardsBits :
    let s := { State.reset with bc := 64, res := 0xffffffffffffffff }
    0 ≤ s.bc.toNat ∧ 64 ≤ s.bc.toNat ∧ s.res.toNat < 2 ^ s.bc.toNat := by decide

theorem test_witness_PushbackUndoesRefill :
    let s := { running .decoding [1, 2, 3, 4, 5, 6, 7] with bc := 7, res := 0x7f }
    s.bc.toNat ≤ 7 ∧ s.res.toNat < 2 ^ s.bc.toNat ∧ s.consumedAny = true ∧ 7 ≤ s.srcLen.toNat ∧ s.bc.toNat + 8 * 7 ≤ 64 := by decide

/-- A header, LEN and NLEN after a pad, and a length symbol with its extra bits. -/
theorem test_witness_StepRunsTheHeldElement :
    (let s := { running .needHeader [] with res := 3, bc := 3 };
      s.inflating ≠ none ∧ phase s = .element .hdr ∧
        decode (codebook s) .hdr (beforeFetch .hdr s).res.toNat (beforeFetch .hdr s).bc.toNat = .elem (.blockFixed true) 3) ∧
    (let s := { running .stored [] with res := 0x1fffc00037, bc := 37 };
      s.inflating ≠ none ∧ phase s = .element .storedHdr ∧
        decode (codebook s) .storedHdr (beforeFetch .storedHdr s).res.toNat (beforeFetch .storedHdr s).bc.toNat =
          .elem (.storedhdr 0x0001 0xfffe) 32) ∧
    (let s := { running .decoding [] with res := 0x1f23, bc := 13 };
      s.inflating ≠ none ∧ phase s = .element .ll ∧
        decode (codebook s) .ll (beforeFetch .ll s).res.toNat (beforeFetch .ll s).bc.toNat = .elem (.len284 31) 13) := by decide

/-- An empty reservoir, and one that lacks the last byte of LEN and NLEN. -/
theorem test_witness_StepPullsWhatItNeeds :
    ([(running .needHeader [0xf3], .hdr), ({ running .stored [0xff] with res := 0xfe0001, bc := 24 }, .storedHdr)] :
      List (State × Position)).all (fun r =>
        r.1.inflating != none && phase r.1 == .element r.2 &&
          decodeAt (codebook r.1) r.2 (beforeFetch r.2 r.1).res.toNat (beforeFetch r.2 r.1).bc.toNat == .short &&
          r.1.srcLen != 0 && decide ((beforeFetch r.2 r.1).bc.toNat + 8 ≤ 64)) = true := by decide

/-- A length symbol, a distance symbol and a repeat. -/
theorem test_witness_StepHoldsASymbolForItsExtraBits :
    ([({ running .decoding [] with res := 0x23, bc := 8 }, .ll, .lenExtra 227 5, 8),
      ({ running .decoding [] with sub := .distSym, res := 0x04, bc := 5 }, .dist, .distExtra 5 1, 5),
      ({ running .dynamic [] with
          dphase := .lens, hlit := 257, hdist := 1, ct := (build .codes tinyClLens []).getD [], res := 3, bc := 2 },
        .clsym, .repExtra 18, 2)] : List (State × Position × Position × Nat)).all (fun r =>
        r.1.inflating != none && phase r.1 == .element r.2.1 &&
          decodeAt (codebook r.1) r.2.1 r.1.res.toNat r.1.bc.toNat == .operand r.2.2.1 r.2.2.2) = true := by decide

theorem test_witness_StepSuspendsForInput :
    let s := { running .stored [] with res := 0x1f, bc := 5 }
    phase s = .element .storedHdr ∧
      decodeAt (codebook s) .storedHdr (beforeFetch .storedHdr s).res.toNat (beforeFetch .storedHdr s).bc.toNat = .short ∧
      s.srcLen = 0 ∧ s.inflating = some false ∧ { s with inflating := some true }.inflating = some true := by decide

theorem test_witness_FixedSelectStep : (running .fixed []).inflating ≠ none ∧ (running .fixed []).bstate = .fixed := by decide

/-- A complete code-length code, and none at all. -/
theorem test_witness_CodeLengthTableStep :
    let s := { running .dynamic [] with dphase := .clens, idx := 4, hclen := 4, clens := [(0, 1), (18, 1)] }
    s.inflating ≠ none ∧ s.bstate = .dynamic ∧ s.dphase = .clens ∧ s.idx = s.hclen.setWidth 9 ∧
      (build .codes (clensVector s) s.ct).isSome = true ∧ build .codes (clensVector { s with clens := [] }) s.ct = none := by decide

/-- The four cases: no symbol 256, a bad literal/length code, a bad distance code, both good. -/
theorem test_witness_BlockTablesStep :
    let s := { running .dynamic [] with dphase := .lens, hlit := 257, hdist := 1, idx := 258 }
    let lit (t : State) := build .lens (lensSlice t 0 t.hlit.toNat) t.lt
    let dist (t : State) := build .dists (lensSlice t t.hlit.toNat t.hdist.toNat) t.dt
    s.inflating ≠ none ∧ s.bstate = .dynamic ∧ s.dphase = .lens ∧ s.idx.toNat = s.hlit.toNat + s.hdist.toNat ∧
      Ram.read 0 s.lens 256 = 0 ∧ lit { s with lens := [(256, 1)] } = none ∧
      (lit { s with lens := [(0, 1), (256, 1), (257, 2)] }).isSome = true ∧ dist { s with lens := [(0, 1), (256, 1), (257, 2)] } = none ∧
      (dist { s with lens := [(0, 1), (256, 1), (257, 1)] }).isSome = true := by decide +kernel

theorem test_witness_EmitStep :
    let s := { running .decoding [] with litPending := true, auxLen := 255 }
    s.inflating ≠ none ∧ s.bstate = .decoding ∧ s.sub = .litLen ∧ s.litPending = true ∧ s.dstLen ≠ 0 ∧
      { s with dstLen := 0 }.dstLen = 0 := by decide

/-- Exactly enough room; the first byte from the window and the second from the output; the largest target. -/
theorem test_witness_CopyRepeatsTheHistory :
    let s := { running .decoding [] with sub := .copy, auxLen := 3, auxDist := 1, dstLen := 3, wCount := 1, wEnd := 1, window := [(0, 7)] }
    s.inflating ≠ none ∧ s.bstate = .decoding ∧ s.sub = .copy ∧ Memory.wf s.mem = true ∧ 1 ≤ s.auxDist.toNat ∧
      s.auxLen.toNat ≤ s.dstLen.toNat ∧ produced s + s.dstLen.toNat < 2 ^ 32 ∧
      ¬ s.auxDist.toNat ≤ produced s + 0 ∧ s.auxDist.toNat ≤ produced s + 1 ∧
      produced s + { s with dstLen := 0xffffffff }.dstLen.toNat < 2 ^ 32 := by decide

/-- One byte too few, and no room at all. -/
theorem test_witness_CopySuspendsWhenTheTargetFills :
    ([2, 0] : List Word).all (fun n =>
      let s := { running .decoding [] with sub := .copy, auxLen := 3, auxDist := 1, dstLen := n, wCount := 1 }
      s.inflating != none && s.bstate == .decoding && s.sub == .copy && Memory.wf s.mem && decide (1 ≤ s.auxDist.toNat) &&
        decide (s.dstLen.toNat < s.auxLen.toNat) && decide (produced s + s.dstLen.toNat < 2 ^ 32)) = true := by decide

/-- The span of three bytes at 0x1000 and the one at 0x2000 share none. -/
theorem test_disjoint_spans (j k : Nat) (hj : j < 3) (hk : k < 3) :
    (0x1000 : Word) + BitVec.ofNat 32 j ≠ 0x2000 + BitVec.ofNat 32 k := by
  bv_omega

theorem test_witness_StoredDataCopiesTheSource :
    let s := { running .stored [1, 2, 3] with sphase := .copy, srem := 3, dstLen := 3, bc := 7 }
    Memory.wf s.mem = true ∧ s.bc.toNat < 8 ∧ s.srem.toNat ≤ s.srcLen.toNat ∧ s.srem.toNat ≤ s.dstLen.toNat ∧
      s.srem.toNat = 3 ∧ s.srcPtr = 0x1000 ∧ s.dstPtr = 0x2000 := by decide

/-- Both spans end at the same byte; the source ends first. -/
theorem test_witness_StoredDataSuspends :
    (let s := { running .stored [1] with sphase := .copy, srem := 3, dstLen := 1 };
      Memory.wf s.mem = true ∧ s.bc.toNat < 8 ∧ s.srem.toNat = 3 ∧ s.srcPtr = 0x1000 ∧ s.dstPtr = 0x2000 ∧
        s.dstLen.toNat < s.srem.toNat ∧ s.dstLen.toNat ≤ s.srcLen.toNat) ∧
    (let s := { running .stored [1] with sphase := .copy, srem := 3, dstLen := 2 };
      Memory.wf s.mem = true ∧ s.bc.toNat < 8 ∧ s.srem.toNat = 3 ∧ s.srcPtr = 0x1000 ∧ s.dstPtr = 0x2000 ∧
        s.srcLen.toNat < s.srem.toNat ∧ s.srcLen.toNat < s.dstLen.toNat) := by decide

theorem test_witness_EmptyStoredBlockEnds :
    let s := { running .stored [] with sphase := .copy, dstLen := 0 }
    s.srem = 0 ∧ s.bfinal = false ∧ { s with bfinal := true }.bfinal = true := by decide

theorem test_witness_StoredHeaderCompletes :
    (0xffff : BitVec 16) = 0 ^^^ 0xFFFF#16 ∧ (0xff02 : BitVec 16) ≠ 1 ^^^ 0xFFFF#16 := by decide

/-- The last legal counts and the first illegal ones. -/
theorem test_witness_CountsComplete :
    ((29 : BitVec 5).toNat + 257 ≤ 286 ∧ (29 : BitVec 5).toNat + 1 ≤ 30) ∧ 286 < (30 : BitVec 5).toNat + 257 ∧ 30 < (30 : BitVec 5).toNat + 1 := by
  decide

theorem test_witness_CodeLengthLengthsComplete :
    ([0, 18] : List (BitVec 9)).all (fun i =>
      let s := { running .dynamic [] with dphase := .clens, idx := i, hclen := 19, clens := [(16, 3)] }
      Ram.wf 19 0 s.clens && decide (s.idx.toNat < 19)) = true := by decide

/-- Repeats that end exactly at 316; a repeat of zeros at 0. -/
theorem test_witness_RepeatsComplete :
    let s := { running .dynamic [] with dphase := .lens, hlit := 286, hdist := 30, idx := 313, lens := [(312, 8)] }
    Ram.wf 320 0 s.lens = true ∧ s.hlit.toNat + s.hdist.toNat ≤ 320 ∧ s.idx ≠ 0 ∧
      s.idx.toNat + (3 + (0 : BitVec 2).toNat) ≤ s.hlit.toNat + s.hdist.toNat ∧
      s.idx.toNat + (3 + (0 : BitVec 3).toNat) ≤ s.hlit.toNat + s.hdist.toNat ∧
      { s with idx := 178 }.idx.toNat + (11 + (127 : BitVec 7).toNat) ≤ s.hlit.toNat + s.hdist.toNat ∧
      { s with idx := 0 }.idx.toNat + (3 + (7 : BitVec 3).toNat) ≤ s.hlit.toNat + s.hdist.toNat := by decide

/-- No previous length; one length past 316. -/
theorem test_witness_RepeatsTrap :
    let s := { running .dynamic [] with dphase := .lens, hlit := 286, hdist := 30, idx := 314 }
    { s with idx := 0 }.idx = 0 ∧ s.hlit.toNat + s.hdist.toNat < s.idx.toNat + (3 + (0 : BitVec 2).toNat) ∧
      s.hlit.toNat + s.hdist.toNat < s.idx.toNat + (3 + (0 : BitVec 3).toNat) ∧
      s.hlit.toNat + s.hdist.toNat < s.idx.toNat + (11 + (0 : BitVec 7).toNat) := by decide

theorem test_witness_LiteralAndEndOfBlockComplete :
    (running .decoding []).bfinal = false ∧ { running .decoding [] with bfinal := true }.bfinal = true := by decide

/-- Distances that reach exactly to the start of the history: in the output, in the window, and the largest. -/
theorem test_witness_DistanceSymbolsComplete :
    1 ≤ available { running .decoding [] with dstPtr := 0x2001 } ∧
    129 + (63 : BitVec 6).toNat ≤ available { running .decoding [] with wCount := 192 } ∧
    193 + (63 : BitVec 6).toNat ≤ available { running .decoding [] with wCount := 256 } ∧
    24577 + (8191 : BitVec 13).toNat ≤ available { running .decoding [] with wCount := 32768 } := by decide

/-- Distances one beyond the history. -/
theorem test_witness_FarDistancesRaiseFarOffset :
    (distanceInstr 0 0 = some .dist0 ∧ available (running .decoding []) < dbase 0 + 0 % 2 ^ dextra 0) ∧
    (distanceInstr 29 8191 = some (.dist29 8191) ∧
      available { running .decoding [] with wCount := 32767 } < dbase 29 + 8191 % 2 ^ dextra 29) := by decide

theorem test_witness_FoldKeepsTheHistory :
    ([0, 32768] : List (BitVec 16)).all (fun n =>
      let s := { running .decoding [] with wCount := n, dstPtr := 0x2005, window := [(0, 1), (32767, 2)] }
      Ram.wf 32768 0 s.window && decide (s.wCount.toNat ≤ 32768)) = true := by decide

/-- Each clause: BAD; a dictionary before RESET and one too late; and an empty dictionary and one that ends at 2^32. -/
theorem test_witness_DictionaryFillsTheWindow :
    ({ State.reset with bstate := .bad }.bstate = .bad) ∧
    ([State.reset, running .decoding []]).all (fun s =>
      s.bstate != .bad && decide (s.dictPtr.toNat + s.dictLen.toNat ≤ 2 ^ 32) &&
        !spansOverlap s.dictPtr s.dictLen s.dstPtr s.dstLen && (s.bstate == .uninit || s.consumedAny)) = true ∧
    ([(0, 0), (0xffff0000, 0x10000)] : List (Word × Word)).all (fun d =>
      let s := { State.reset with bstate := .needHeader, dictPtr := d.1, dictLen := d.2, dstPtr := 0x2000, dstLen := 16 }
      s.bstate != .bad && s.bstate != .uninit && !s.consumedAny && Ram.wf 32768 0 s.window &&
        decide (s.dictPtr.toNat + s.dictLen.toNat ≤ 2 ^ 32) && !spansOverlap s.dictPtr s.dictLen s.dstPtr s.dstLen) = true := by decide

/-- Each block state; spans that end at 2^32, and spans that touch. -/
theorem test_witness_InflateStarts :
    { State.reset with bstate := .bad }.bstate = .bad ∧
    ([.uninit, .needHeader, .stored, .fixed, .dynamic, .decoding, .finalConsumed] : List BState).all (fun b =>
      let s := { running b [1] with srcPtr := 0xffffffff, dstPtr := 0xfffffff0, dstLen := 15 }
      (s.bstate == .uninit || s.bstate == .finalConsumed || s.bstate.runs) &&
        decide (s.srcPtr.toNat + s.srcLen.toNat ≤ 2 ^ 32) && decide (s.dstPtr.toNat + s.dstLen.toNat ≤ 2 ^ 32) &&
        !spansOverlap s.srcPtr s.srcLen s.dstPtr s.dstLen) = true := by decide

/-- In every block state but BAD: a span one byte past 2^32, and spans that share one byte. -/
theorem test_witness_WrappedOrOverlappingSpansAreRefused :
    ([.uninit, .needHeader, .stored, .fixed, .dynamic, .decoding, .finalConsumed] : List BState).all (fun b => b != .bad) = true ∧
    (let s := { running .uninit [] with srcPtr := 0xffffffff, srcLen := 2 };
      s.bstate ≠ .bad ∧ 2 ^ 32 < s.srcPtr.toNat + s.srcLen.toNat) ∧
    (let s := { running .finalConsumed [] with dstPtr := 0xffffffff, dstLen := 2 };
      s.bstate ≠ .bad ∧ s.srcPtr.toNat + s.srcLen.toNat ≤ 2 ^ 32 ∧ 2 ^ 32 < s.dstPtr.toNat + s.dstLen.toNat) ∧
    (let s := { running .needHeader [1, 2] with dstPtr := 0x1001 };
      s.bstate ≠ .bad ∧ s.srcPtr.toNat + s.srcLen.toNat ≤ 2 ^ 32 ∧ s.dstPtr.toNat + s.dstLen.toNat ≤ 2 ^ 32 ∧
        s.srcPtr.toNat ≤ 0x1001 ∧ 0x1001 < s.srcPtr.toNat + s.srcLen.toNat ∧ s.dstPtr.toNat ≤ 0x1001 ∧ 0x1001 < s.dstPtr.toNat + s.dstLen.toNat) ∧
    (let s := { State.reset with dictPtr := 0xffffffff, dictLen := 2 };
      s.bstate ≠ .bad ∧ 2 ^ 32 < s.dictPtr.toNat + s.dictLen.toNat) ∧
    (let s := { State.reset with dictPtr := 0x2000, dictLen := 1, dstPtr := 0x2000, dstLen := 1 };
      s.bstate ≠ .bad ∧ s.dictPtr.toNat + s.dictLen.toNat ≤ 2 ^ 32 ∧
        s.dictPtr.toNat ≤ 0x2000 ∧ 0x2000 < s.dictPtr.toNat + s.dictLen.toNat ∧ s.dstPtr.toNat ≤ 0x2000 ∧ 0x2000 < s.dstPtr.toNat + s.dstLen.toNat) := by
  decide

/-- Each clause between commands. -/
theorem test_witness_HostStepsFollowTheRegisterMap :
    (hostAt (.write 0x00 .word 1)).inflating = none ∧ (hostAt (.write 0x00 .word 1)).hostQueue = [.write 0x00 .word 1] ∧
    (0x00 : Word).toNat % 4 = 0 ∧ decodeHostWrite 0x00 1 = some .reset ∧
    (0x1C : Word).toNat % 4 = 0 ∧ decodeHostWrite 0x1C 1 = none ∧ decodeHostWrite 0x04 1 = none ∧
    ((0x01 : Word).toNat % 4 ≠ 0 ∨ AccessSize.word ≠ .word) ∧ ((0x04 : Word).toNat % 4 ≠ 0 ∨ AccessSize.byte ≠ .word) ∧
    (hostAt (.poke 0xffffffff 1)).hostQueue = [.poke 0xffffffff 1] ∧ State.reset.hostQueue = [] := by decide

theorem test_witness_ResultWordFields :
    exec (.setSource .len 5) State.reset = .next { State.reset with srcLen := 5 } ∧
    exec (.setTarget .ptr 5) State.reset = .next { State.reset with dstPtr := 5 } := ⟨rfl, rfl⟩

theorem test_witness_NoInstructionTouchesTheHostsRegisters : exec .reset State.reset = .next (resetRegisters State.reset) := rfl

/-- The bytes just below and just above a target of one byte. -/
theorem test_witness_ErrorKeepsProducedBytes :
    let s := { running .decoding [] with dstLen := 1 }
    Memory.wf s.mem = true ∧ ¬ inTarget s 0x1fff ∧ inTarget s 0x2000 ∧ ¬ inTarget s 0x2001 := by
  unfold inTarget
  decide

/-- INFLATE in BAD, and a store of the host. -/
theorem test_witness_BadIsStickyUntilReset :
    (let s := { hostAt (.write 0x00 .word 3) with bstate := .bad, err := .badTree };
      s.bstate = .bad ∧ s.inflating = none ∧ step s = .next { s with status := .error, hostQueue := [] } ∧
        (3 : Word).extractLsb' 0 8 ≠ 0x01#8) ∧
    (let s := { hostAt (.poke 0x1000 7) with bstate := .bad };
      s.bstate = .bad ∧ s.inflating = none ∧ step s = .next { s with mem := [(0x1000, 7)], hostQueue := [] }) :=
  ⟨⟨rfl, rfl, rfl, by decide⟩, rfl, rfl, rfl⟩

/-- A stored byte, and a literal that stores nothing. -/
theorem test_witness_InstructionsStoreOnlyInTheTarget :
    (let s := { running .stored [0x41] with sphase := .copy, srem := 1, dstLen := 1 };
      Memory.wf s.mem = true ∧ (nextOf (exec .storedData s)).isSome = true ∧ ¬ inTarget s 0x2001) ∧
    (let s := running .decoding [];
      Memory.wf s.mem = true ∧ exec (.lit 0x41) s = .next { s with auxLen := 0x41, litPending := true } ∧ ¬ inTarget s 0x2010) := by
  refine ⟨?_, by decide, rfl, by unfold inTarget; decide⟩
  unfold inTarget
  decide

theorem test_witness_RunningInflateStoresOnlyInTheTarget :
    let s := { running .decoding [] with litPending := true, auxLen := 0x41 }
    Memory.wf s.mem = true ∧ s.inflating ≠ none ∧ (nextOf (step s)).isSome = true ∧ ¬ inTarget s 0x1fff ∧ ¬ inTarget s 0x2010 := by
  unfold inTarget
  decide

/-- A core inside a match: 3 bytes to copy from 1 back, one byte written. -/
def copying : State :=
  { running .decoding [0x00] with sub := .copy, auxLen := 3, auxDist := 1, dstPtr := 0x2001, dstLen := 15 }

theorem test_storage_at_a_header : StorageInv (running .needHeader [0xf3]) where
  mem := by decide
  clens := rfl
  lens := rfl
  lt := rfl
  dt := rfl
  ct := rfl
  window := rfl
  bc := by decide
  res := by decide
  wCount := by decide

theorem test_storage_of_copying : StorageInv copying where
  mem := by decide
  clens := rfl
  lens := rfl
  lt := rfl
  dt := rfl
  ct := rfl
  window := rfl
  bc := by decide
  res := by decide
  wCount := by decide

theorem test_witness_StepKeepsTheStorageInRange :
    StorageInv copying ∧ (nextOf (step copying)).isSome = true := ⟨test_storage_of_copying, by decide⟩

/-- The invariant at a block header. -/
theorem test_invariant_at_a_header : Inv (running .needHeader [0xf3]) where
  storage := test_storage_at_a_header
  slow := by decide
  running := by decide
  room := by decide
  fresh := by decide
  dynamic := fun h => absurd h (by decide)
  decoding := fun h => absurd h (by decide)

/-- The invariant inside a match. -/
theorem test_invariant_inside_a_match : Inv copying where
  storage := test_storage_of_copying
  slow := by decide
  running := by decide
  room := by decide
  fresh := by decide
  dynamic := fun h => absurd h (by decide)
  decoding := fun _ =>
    { lt := fun h => absurd h (by decide), dt := fun h => absurd h (by decide), literal := by decide, lenExtra := by decide, length := by decide
      distExtra := by decide, copyLen := by decide, copyDist := by decide }

theorem test_witness_StepKeepsTheInvariant :
    Inv copying ∧ (nextOf (step copying)).isSome = true := ⟨test_invariant_inside_a_match, by decide⟩

theorem test_witness_NoStepFaults : Inv (running .needHeader [0xf3]) ∧ (running .needHeader [0xf3]).inflating ≠ none :=
  ⟨test_invariant_at_a_header, by decide⟩

theorem test_witness_InflateTerminates : Inv copying ∧ copying.inflating ≠ none :=
  ⟨test_invariant_inside_a_match, by decide⟩

end Sys2Proof.Tests
end

/-! # The block header and stored blocks (43_block_header_stored.md): FIXED-SELECT and the end of a block -/

namespace Sys2Proof.Machine

/-! ## Which step runs -/

/-- While an INFLATE runs, the host does not act: a step is one of its step loop (rules R30, R93). -/
theorem step_of_inflating {s : State} (running : s.inflating ≠ none) : step s = streamStep s := by
  obtain ⟨final, h⟩ := Option.ne_none_iff_exists'.mp running
  simp only [step, h]

theorem phase_of_fixed {s : State} (h : s.bstate = .fixed) : phase s = .fixedSelect := by
  simp only [phase, h]

theorem streamStep_of_fixedSelect {s : State} (h : phase s = .fixedSelect) :
    streamStep s = .next (enterBody .fixed s) := by
  simp only [streamStep, h, fixedSelect]

/-! ## The tables a block body decodes with (rules R49, R54) -/

theorem codebook_lt_of_fixed {s : State} (h : s.tsel = .fixed) : (codebook s).lt = ltFixed := by
  simp only [codebook, h]

theorem codebook_dt_of_fixed {s : State} (h : s.tsel = .fixed) : (codebook s).dt = dtFixed := by
  simp only [codebook, h]

/-! ## The end of a block (rules R318, R500, R501) -/

/-- After a block that is not the last one, the next header is due and the INFLATE goes on. -/
theorem afterStep_endBlock_of_not_final {s : State} (h : s.bfinal = false) :
    afterStep (endBlock s) = { s with bstate := .needHeader } := by
  simp [endBlock, afterStep, h]

/-- After the last block the INFLATE folds and ends with OK. -/
theorem afterStep_endBlock_of_final {s : State} (h : s.bfinal = true) :
    afterStep (endBlock s) =
      { fold { s with bstate := .finalConsumed } with status := .ok, inflating := none } := by
  simp [endBlock, afterStep, endInflate, h]

/-- The meaning of STORED_DATA: the copy, and the end of the block where it completes (rule R317). -/
theorem exec_storedData (s : State) :
    exec .storedData s = (copyStored s.srem.toNat s).finish fun t => afterStep (endBlock t) := rfl

/-- With no byte left to copy, the spans are not asked and the block ends (rule R320). -/
theorem exec_storedData_of_srem_zero {s : State} (empty : s.srem = 0) :
    exec .storedData s = .next (afterStep (endBlock s)) := by
  have done : copyStored s.srem.toNat s = .done s := by rw [empty]; rfl
  rw [exec_storedData, done, Flow.finish]

end Sys2Proof.Machine

namespace Sys2Proof

open Machine

/-- Settles O18: the dispatch of a fixed block is FIXED-SELECT, which has one outcome, and `tsel` then selects the ROMs. -/
theorem fixedSelectStep : Obligations.FixedSelectStep := by
  intro s running fixed
  have run : step s = .next (enterBody .fixed s) := by
    rw [step_of_inflating running, streamStep_of_fixedSelect (phase_of_fixed fixed)]
  refine ⟨run, fun t next => ?_⟩
  obtain rfl : enterBody .fixed s = t := Host.Outcome.next.inj (run.symm.trans next)
  exact ⟨codebook_lt_of_fixed rfl, codebook_dt_of_fixed rfl⟩

/-- Settles O28: the copy of no bytes completes before either span is looked at, and the block ends by `bfinal`. -/
theorem emptyStoredBlockEnds : Obligations.EmptyStoredBlockEnds := by
  intro s empty
  rw [exec_storedData_of_srem_zero empty]
  constructor
  · intro more
    rw [afterStep_endBlock_of_not_final more]
  · intro last
    rw [afterStep_endBlock_of_final last]

end Sys2Proof

/-! # The dynamic header (44_dynamic_header.md): the code-length symbols -/

namespace Sys2Proof.Machine

/-- What the symbols CL0 to CL15 share: the value goes to the end of the length vector, and nothing else changes (rule R345). -/
theorem codeLength_eq_next (n : BitVec 4) (s : State) :
    codeLength n s = .next { s with lens := Ram.write 320 0 s.idx.toNat n s.lens, idx := s.idx + 1 } := rfl

end Sys2Proof.Machine

namespace Sys2Proof

open Machine

/-- Settles O31: the dispatch gives each symbol CL`n` the meaning `codeLength n`, which appends `n`. -/
theorem codeLengthSymbolsComplete : Obligations.CodeLengthSymbolsComplete := fun s =>
  ⟨codeLength_eq_next 0 s, codeLength_eq_next 1 s, codeLength_eq_next 2 s, codeLength_eq_next 3 s,
    codeLength_eq_next 4 s, codeLength_eq_next 5 s, codeLength_eq_next 6 s, codeLength_eq_next 7 s,
    codeLength_eq_next 8 s, codeLength_eq_next 9 s, codeLength_eq_next 10 s, codeLength_eq_next 11 s,
    codeLength_eq_next 12 s, codeLength_eq_next 13 s, codeLength_eq_next 14 s, codeLength_eq_next 15 s⟩

end Sys2Proof

/-! # The fast path (46_fast_path.md): the pushback at its exit -/

namespace Sys2Proof.Machine

/-- A pull keeps the bits above `bc` clear (rules R39, R202). -/
theorem takeByte_res_lt {s : State} (room : s.bc.toNat + 8 ≤ 64) (clear : s.res.toNat < 2 ^ s.bc.toNat) :
    (takeByte s).res.toNat < 2 ^ (takeByte s).bc.toNat := by
  rw [takeByte_bc_toNat room, takeByte_res_toNat room clear, pow_add]
  have byte : 2 ^ s.bc.toNat * (sourceByte s).toNat ≤ 2 ^ s.bc.toNat * 255 :=
    Nat.mul_le_mul_left _ (Nat.le_of_lt_succ (sourceByte s).isLt)
  omega

/-- A pull puts its byte above the bits held, so it keeps the bits of the byte that is held in part. -/
theorem takeByte_res_mod {s : State} (room : s.bc.toNat + 8 ≤ 64) (clear : s.res.toNat < 2 ^ s.bc.toNat) :
    (takeByte s).res.toNat % 2 ^ (s.bc.toNat % 8) = s.res.toNat % 2 ^ (s.bc.toNat % 8) := by
  have low : 2 ^ (s.bc.toNat % 8) ∣ 2 ^ s.bc.toNat := pow_dvd_pow 2 (Nat.mod_le _ _)
  rw [takeByte_res_toNat room clear, Nat.add_mod, Nat.mod_eq_zero_of_dvd (low.mul_right _), Nat.add_zero, Nat.mod_mod]

/-- A pushback after one pull gives back the pulled byte too: it ends where a pushback without the pull ends (rule R474). -/
theorem pushback_takeByte {s : State} (room : s.bc.toNat + 8 ≤ 64) (clear : s.res.toNat < 2 ^ s.bc.toNat)
    (consumed : s.consumedAny = true) : pushback (takeByte s) = pushback s := by
  have whole : (takeByte s).bc.toNat / 8 = s.bc.toNat / 8 + 1 := by rw [takeByte_bc_toNat room]; omega
  have part : (takeByte s).bc.toNat % 8 = s.bc.toNat % 8 := by rw [takeByte_bc_toNat room]; omega
  have ptr (n : Nat) : s.srcPtr + 1 - BitVec.ofNat 32 (n + 1) = s.srcPtr - BitVec.ofNat 32 n := by bv_omega
  have len (n : Nat) : s.srcLen - 1 + BitVec.ofNat 32 (n + 1) = s.srcLen + BitVec.ofNat 32 n := by bv_omega
  unfold pushback
  rw [whole, part, takeByte_res_mod room clear, takeByte_srcPtr, takeByte_srcLen, ptr, len]
  simp [takeByte, advanceSource, consumed]

/-- A refill that fits is given back whole, byte by byte (rules R472, R474). -/
theorem pushback_refill (k : Nat) {s : State} (room : s.bc.toNat + 8 * k ≤ 64) (clear : s.res.toNat < 2 ^ s.bc.toNat)
    (consumed : s.consumedAny = true) : pushback (refill k s) = pushback s := by
  induction k generalizing s with
  | zero => rfl
  | succ k ih =>
    have one : s.bc.toNat + 8 ≤ 64 := by omega
    have rest : (takeByte s).bc.toNat + 8 * k ≤ 64 := by rw [takeByte_bc_toNat one]; omega
    calc pushback (refill (k + 1) s) = pushback (takeByte s) := ih rest (takeByte_res_lt one clear) rfl
      _ = pushback s := pushback_takeByte one clear consumed

/-- With no whole byte held there is nothing to give back (rule R474). -/
theorem pushback_of_bc_lt {s : State} (held : s.bc.toNat < 8) (clear : s.res.toNat < 2 ^ s.bc.toNat) : pushback s = s := by
  unfold pushback
  rw [Nat.div_eq_of_lt held, Nat.mod_eq_of_lt held, Nat.mod_eq_of_lt clear]
  simp

end Sys2Proof.Machine

namespace Sys2Proof

open Machine

/-- Settles O13: the pushback undoes the pulls of the refill one by one, and of what was held before it gives back nothing. -/
theorem pushbackUndoesRefill : Obligations.PushbackUndoesRefill := by
  intro s k part clear consumed _ room
  rw [pushback_refill k room clear consumed, pushback_of_bc_lt (Nat.lt_succ_of_le part) clear]

end Sys2Proof

/-! # The driver (47_stream_driver.md): the spans -/

namespace Sys2Proof.Machine

/-! ## SET_SOURCE and SET_TARGET by halves (rules R493, R494, R510) -/

theorem exec_setSource_ptr (v : Word) (s : State) : exec (.setSource .ptr v) s = .next { s with srcPtr := v } := rfl

theorem exec_setSource_len (v : Word) (s : State) : exec (.setSource .len v) s = .next { s with srcLen := v } := rfl

theorem exec_setTarget_ptr (v : Word) (s : State) : exec (.setTarget .ptr v) s = .next { s with dstPtr := v } := rfl

theorem exec_setTarget_len (v : Word) (s : State) : exec (.setTarget .len v) s = .next { s with dstLen := v } := rfl

end Sys2Proof.Machine

namespace Sys2Proof

open Machine

/-- Settles O46: each half of a span write has one outcome, whatever the state: its own register set, no check made. -/
theorem spanWritesComplete : Obligations.SpanWritesComplete := fun s v =>
  ⟨exec_setSource_ptr v s, exec_setSource_len v s, exec_setTarget_ptr v s, exec_setTarget_len v s⟩

end Sys2Proof

/-! # Stored blocks (43_block_header_stored.md): a copy that a span cuts short -/

namespace Sys2Proof.Machine

/-! ## Where STORED_DATA stops (rules R317, R609, R620) -/

/-- Where the target ends no later than the source, the block is cut at the target's end. -/
theorem exec_storedData_of_target_short {s : State} (slow : s.bc.toNat < 8) (short : s.dstLen.toNat < s.srem.toNat)
    (first : s.dstLen.toNat ≤ s.srcLen.toNat) :
    exec .storedData s = .next (suspendTarget (storeSourceByte^[s.dstLen.toNat] s)) := by
  rw [exec_storedData, copyStored_spec _ s slow, if_neg (by omega), if_pos first, Flow.finish]

/-- Where the source ends before the target, the block is cut at the source's end. -/
theorem exec_storedData_of_source_short {s : State} (slow : s.bc.toNat < 8) (short : s.srcLen.toNat < s.srem.toNat)
    (first : s.srcLen.toNat < s.dstLen.toNat) :
    exec .storedData s = .next (suspendSource (storeSourceByte^[s.srcLen.toNat] s)) := by
  rw [exec_storedData, copyStored_spec _ s slow, if_neg (by omega), if_neg (by omega), Flow.finish]

/-! ## What `k` stored bytes from the source change (rules R88, R203, R317) -/

theorem storeSourceByte_eq (s : State) :
    storeSourceByte s = { s with
      mem := Memory.write s.mem s.dstPtr (sourceByte s), srem := s.srem - 1, consumedAny := true
      srcPtr := s.srcPtr + 1, srcLen := s.srcLen - 1, dstPtr := s.dstPtr + 1, dstLen := s.dstLen - 1 } := rfl

/-- Beside host memory, `k` stored bytes move the two spans and `srem` by `k`, and count as input where there are any. -/
theorem storeSourceByte_iterate_registers (k : Nat) (s : State) :
    storeSourceByte^[k] s = { s with
      mem := (storeSourceByte^[k] s).mem, srem := s.srem - BitVec.ofNat 16 k, consumedAny := s.consumedAny || k != 0
      srcPtr := s.srcPtr + BitVec.ofNat 32 k, srcLen := s.srcLen - BitVec.ofNat 32 k
      dstPtr := s.dstPtr + BitVec.ofNat 32 k, dstLen := s.dstLen - BitVec.ofNat 32 k } := by
  induction k with
  | zero => simp
  | succ k ih =>
    rw [Function.iterate_succ_apply', ih, storeSourceByte_eq]
    simp [BitVec.ofNat_add, sub_add_eq_sub_sub, BitVec.add_assoc]

/-- The same for a span length `n`: it is used up. -/
theorem storeSourceByte_iterate_toNat_registers (n : Word) (s : State) :
    storeSourceByte^[n.toNat] s = { s with
      mem := (storeSourceByte^[n.toNat] s).mem, srem := s.srem - n.setWidth 16, consumedAny := s.consumedAny || n != 0
      srcPtr := s.srcPtr + n, srcLen := s.srcLen - n, dstPtr := s.dstPtr + n, dstLen := s.dstLen - n } := by
  have any : (n.toNat != 0) = (n != 0) := by rw [Bool.eq_iff_iff]; simp [← BitVec.toNat_inj]
  have h := storeSourceByte_iterate_registers n.toNat s
  rwa [any, BitVec.ofNat_toNat, BitVec.ofNat_toNat, BitVec.setWidth_eq] at h

theorem storeSourceByte_iterate_mem_wf (k : Nat) {s : State} (wf : Memory.wf s.mem = true) :
    Memory.wf (storeSourceByte^[k] s).mem = true := by
  induction k with
  | zero => exact wf
  | succ k ih =>
    rw [Function.iterate_succ_apply', storeSourceByte_mem]
    exact Memory.wf_write ih _ _

/-- One more stored byte goes from `srcPtr + k` to `dstPtr + k`. -/
theorem storeSourceByte_iterate_succ_mem (k : Nat) (s : State) :
    (storeSourceByte^[k + 1] s).mem = Memory.write (storeSourceByte^[k] s).mem (s.dstPtr + BitVec.ofNat 32 k)
      (Memory.read (storeSourceByte^[k] s).mem (s.srcPtr + BitVec.ofNat 32 k)) := by
  have regs := storeSourceByte_iterate_registers k s
  have src : (storeSourceByte^[k] s).srcPtr = s.srcPtr + BitVec.ofNat 32 k := by rw [regs]
  have dst : (storeSourceByte^[k] s).dstPtr = s.dstPtr + BitVec.ofNat 32 k := by rw [regs]
  rw [Function.iterate_succ_apply', storeSourceByte_mem, sourceByte, src, dst]

/-- Outside the `k` bytes from `dstPtr` on, host memory stays as it is. -/
theorem read_storeSourceByte_iterate_of_outside (k : Nat) {s : State} (wf : Memory.wf s.mem = true) {a : Word}
    (out : k ≤ (a - s.dstPtr).toNat) : Memory.read (storeSourceByte^[k] s).mem a = Memory.read s.mem a := by
  induction k with
  | zero => rfl
  | succ k ih =>
    have ne : a ≠ s.dstPtr + BitVec.ofNat 32 k := by bv_omega
    rw [storeSourceByte_iterate_succ_mem, Memory.read_write (storeSourceByte_iterate_mem_wf k wf), if_neg ne]
    exact ih (by omega)

/-- An address that is none of the `k` from `p` on lies at least `k` beyond `p`. -/
theorem le_toNat_sub_of_ne {a p : Word} {k : Nat} (apart : ∀ i, i < k → a ≠ p + BitVec.ofNat 32 i) :
    k ≤ (a - p).toNat := by
  by_contra near
  exact apart (a - p).toNat (by omega) (by rw [BitVec.ofNat_toNat, BitVec.setWidth_eq, add_sub_cancel])

/-- Where the `k` source bytes lie apart from the `k` target bytes, the target receives them as they were before the copy. -/
theorem read_storeSourceByte_iterate (k : Nat) {s : State} (wf : Memory.wf s.mem = true) (fits : k ≤ 2 ^ 32)
    (apart : ∀ i j, i < k → j < k → s.srcPtr + BitVec.ofNat 32 i ≠ s.dstPtr + BitVec.ofNat 32 j) {j : Nat} (hj : j < k) :
    Memory.read (storeSourceByte^[k] s).mem (s.dstPtr + BitVec.ofNat 32 j) =
      Memory.read s.mem (s.srcPtr + BitVec.ofNat 32 j) := by
  induction k with
  | zero => omega
  | succ k ih =>
    rw [storeSourceByte_iterate_succ_mem, Memory.read_write (storeSourceByte_iterate_mem_wf k wf)]
    obtain before | rfl : j < k ∨ j = k := by omega
    · have ne : s.dstPtr + BitVec.ofNat 32 j ≠ s.dstPtr + BitVec.ofNat 32 k := by bv_omega
      rw [if_neg ne]
      exact ih (by omega) (fun i j hi hj => apart i j (by omega) (by omega)) before
    · have fresh : j ≤ (s.srcPtr + BitVec.ofNat 32 j - s.dstPtr).toNat :=
        le_toNat_sub_of_ne fun i hi => apart j i hj (by omega)
      rw [if_pos rfl]
      exact read_storeSourceByte_iterate_of_outside j wf fresh

end Sys2Proof.Machine

namespace Sys2Proof

open Machine

/-- Settles O27: the copy stops where the shorter span ends, the target on a tie, and the bytes before that are those of `storeSourceByte` iterated. -/
theorem storedDataSuspends : Obligations.StoredDataSuspends := by
  intro s wf slow apart
  have content (n : Word) (fits : n.toNat < s.srem.toNat) (j : Nat) (hj : j < n.toNat) :
      Memory.read (storeSourceByte^[n.toNat] s).mem (s.dstPtr + BitVec.ofNat 32 j) =
        Memory.read s.mem (s.srcPtr + BitVec.ofNat 32 j) :=
    read_storeSourceByte_iterate n.toNat wf n.isLt.le (fun i j hi hj => apart i j (by omega) (by omega)) hj
  constructor
  · intro short first
    refine ⟨storeSourceByte^[s.dstLen.toNat] s, exec_storedData_of_target_short slow short first, ?_,
      content s.dstLen short, fun a out => ?_⟩
    · simpa using storeSourceByte_iterate_toNat_registers s.dstLen s
    · exact read_storeSourceByte_iterate_of_outside _ wf (Nat.le_of_not_lt out)
  · intro short first
    refine ⟨storeSourceByte^[s.srcLen.toNat] s, exec_storedData_of_source_short slow short first, ?_,
      content s.srcLen short, fun a out => ?_⟩
    · simpa using storeSourceByte_iterate_toNat_registers s.srcLen s
    · exact read_storeSourceByte_iterate_of_outside _ wf out

end Sys2Proof

/-! # The table builder (41_table_builder.md): the code space and the canonical codes -/

namespace Sys2Proof.Machine

/-! ## The code space (rule R233) -/

/-- What the loop leaves is the code space less the sum over the lengths it has run through. -/
theorem leftAfter_eq_sum (L : List Nat) (k : Nat) :
    leftAfter L k = 2 ^ k - ((List.range k).map fun j => (countLen L (j + 1) : Int) * 2 ^ (k - (j + 1))).sum := by
  induction k with
  | zero => simp [leftAfter]
  | succ k ih =>
    have scaled : (List.range k).map (fun j => (countLen L (j + 1) : Int) * 2 ^ (k + 1 - (j + 1))) =
        (List.range k).map fun j => 2 * ((countLen L (j + 1) : Int) * 2 ^ (k - (j + 1))) := by
      refine List.map_congr_left fun j hj => ?_
      rw [List.mem_range] at hj
      rw [show k + 1 - (j + 1) = k - (j + 1) + 1 by omega, pow_succ]
      ring
    rw [leftAfter, ih, List.range_succ, List.map_append, List.sum_append, scaled, List.sum_map_mul_left]
    simp [pow_succ]
    ring

/-! ## The ranges of the canonical codes (rule R236) -/

theorem firstCode_succ (L : List Nat) {k : Nat} (pos : 0 < k) :
    firstCode L (k + 1) = 2 * (firstCode L k + countLen L k) := by
  rw [firstCode, if_neg pos.ne']

/-- The code space that is left begins where the codes of the last length end. -/
theorem leftAfter_eq_sub (L : List Nat) {k : Nat} (pos : 0 < k) :
    leftAfter L k = 2 ^ k - ((firstCode L k + countLen L k : Nat) : Int) := by
  induction k, pos using Nat.le_induction with
  | base => simp [leftAfter, firstCode]
  | succ k pos ih =>
    rw [leftAfter, ih, firstCode_succ L pos]
    push_cast
    ring

theorem leftAfter_nonneg {L : List Nat} (fit : overSubscribed L = false) {k : Nat} (pos : 0 < k) (le : k ≤ 15) :
    0 ≤ leftAfter L k := by
  simp only [overSubscribed, List.any_eq_false, List.mem_range, decide_eq_true_eq, not_lt] at fit
  simpa [Nat.sub_add_cancel pos] using fit (k - 1) (by omega)

/-- Where the code is not over-subscribed, the codes of each length fit that length. -/
theorem firstCode_add_countLen_le {L : List Nat} (fit : overSubscribed L = false) {k : Nat} (pos : 0 < k) (le : k ≤ 15) :
    firstCode L k + countLen L k ≤ 2 ^ k := by
  have left := leftAfter_nonneg fit pos le
  rw [leftAfter_eq_sub L pos] at left
  exact_mod_cast sub_nonneg.mp left

/-- The codes of a longer length begin above every extension of a shorter code. -/
theorem firstCode_add_countLen_mul_le (L : List Nat) {k l : Nat} (pos : 0 < k) (lt : k < l) :
    (firstCode L k + countLen L k) * 2 ^ (l - k) ≤ firstCode L l := by
  induction l, lt using Nat.le_induction with
  | base => rw [firstCode_succ L pos, Nat.succ_eq_add_one, Nat.add_sub_cancel_left, pow_one, Nat.mul_comm]
  | succ l lt ih =>
    have longer : firstCode L (l + 1) = 2 * (firstCode L l + countLen L l) := firstCode_succ L (by omega)
    rw [longer, show l + 1 - k = l - k + 1 by omega, pow_succ, ← Nat.mul_assoc]
    omega

theorem firstCode_le_canonicalCode (L : List Nat) (i : Nat) : firstCode L (L.getD i 0) ≤ canonicalCode L i :=
  Nat.le_add_right _ _

/-- Before a position an element occurs less often than in the whole list. -/
theorem count_take_lt {L : List Nat} {i j : Nat} (lt : i < j) (hi : i < L.length) :
    (L.take i).count (L.getD i 0) < (L.take j).count (L.getD i 0) := by
  have next : (L.take (i + 1)).count (L.getD i 0) = (L.take i).count (L.getD i 0) + 1 := by
    rw [List.take_add_one, List.count_append, List.getElem?_eq_getElem hi, List.getD_eq_getElem _ _ hi]
    simp
  have more : (L.take (i + 1)).count (L.getD i 0) ≤ (L.take j).count (L.getD i 0) :=
    List.Sublist.count_le _ (List.take_sublist_take_left (by omega))
  omega

theorem canonicalCode_lt {L : List Nat} {i : Nat} (hi : i < L.length) :
    canonicalCode L i < firstCode L (L.getD i 0) + countLen L (L.getD i 0) := by
  have h := count_take_lt hi hi
  rw [List.take_length] at h
  exact Nat.add_lt_add_left h _

/-- A canonical code fits its length (rule R236). -/
theorem canonicalCode_lt_two_pow {L : List Nat} (short : ∀ x ∈ L, x ≤ 15) (fit : overSubscribed L = false) {i : Nat}
    (hi : i < L.length) (coded : L.getD i 0 ≠ 0) : canonicalCode L i < 2 ^ L.getD i 0 := by
  have le : L.getD i 0 ≤ 15 := by
    rw [List.getD_eq_getElem _ _ hi]
    exact short _ (List.getElem_mem hi)
  exact (canonicalCode_lt hi).trans_le (firstCode_add_countLen_le fit (Nat.pos_of_ne_zero coded) le)

/-- Two symbols of one length have different codes (rule R236). -/
theorem canonicalCode_ne_of_length_eq {L : List Nat} {i j : Nat} (hi : i < L.length) (hj : j < L.length) (ne : i ≠ j)
    (same : L.getD i 0 = L.getD j 0) : canonicalCode L j ≠ canonicalCode L i := by
  unfold canonicalCode
  rcases Nat.lt_or_gt_of_ne ne with lt | gt
  · have h := count_take_lt lt hi
    rw [← same]
    omega
  · have h := count_take_lt gt hj
    rw [same]
    omega

/-- No code is the beginning of another (rule R237). -/
theorem canonicalCode_shiftRight_ne {L : List Nat} {i j : Nat} (hi : i < L.length) (hj : j < L.length) (ne : i ≠ j)
    (coded : L.getD i 0 ≠ 0) (le : L.getD i 0 ≤ L.getD j 0) :
    canonicalCode L j >>> (L.getD j 0 - L.getD i 0) ≠ canonicalCode L i := by
  rcases Nat.eq_or_lt_of_le le with same | lt
  · rw [same, Nat.sub_self, Nat.shiftRight_zero]
    exact canonicalCode_ne_of_length_eq hi hj ne same
  · have above : firstCode L (L.getD i 0) + countLen L (L.getD i 0) ≤
        canonicalCode L j >>> (L.getD j 0 - L.getD i 0) := by
      rw [Nat.shiftRight_eq_div_pow, Nat.le_div_iff_mul_le (by positivity)]
      exact (firstCode_add_countLen_mul_le L (Nat.pos_of_ne_zero coded) lt).trans (firstCode_le_canonicalCode L j)
    exact ((canonicalCode_lt hi).trans_le above).ne'

end Sys2Proof.Machine

namespace Sys2Proof

open Machine

/-- Settles O5, by induction on the lengths the loop has run through. -/
theorem leftCountsTheFreeCodeSpace : Obligations.LeftCountsTheFreeCodeSpace := leftAfter_eq_sum

/-- Settles O6: the codes of one length fill a range, and a longer length's range begins above every extension of it. -/
theorem canonicalCodesArePrefixFree : Obligations.CanonicalCodesArePrefixFree := fun _ short fit _ _ hi hj ne coded le =>
  ⟨canonicalCode_lt_two_pow short fit hi coded, canonicalCode_shiftRight_ne hi hj ne coded le⟩

end Sys2Proof

/-! # The table builder (41_table_builder.md): tables and lookups -/

namespace Sys2Proof.Machine

/-! ## Bit reversal (rule R238) -/

theorem rev_lt (k x : Nat) : rev k x < 2 ^ k := by
  induction k generalizing x with
  | zero => simp [rev]
  | succ k ih =>
    have bit : x % 2 * 2 ^ k ≤ 1 * 2 ^ k := Nat.mul_le_mul_right _ (by omega)
    have rest := ih (x / 2)
    rw [rev, pow_succ]
    omega

theorem testBit_rev (k x i : Nat) : (rev k x).testBit i = (decide (i < k) && x.testBit (k - 1 - i)) := by
  induction k generalizing x i with
  | zero => simp [rev]
  | succ k ih =>
    have top : (rev (k + 1) x).testBit i = if i < k then (rev k (x / 2)).testBit i else (x % 2).testBit (i - k) := by
      rw [rev, Nat.mul_comm, Nat.testBit_two_pow_mul_add _ (rev_lt k _)]
    rw [top, ih]
    rcases Nat.lt_trichotomy i k with lt | rfl | gt
    · rw [if_pos lt, show k + 1 - 1 - i = k - 1 - i + 1 by omega, Nat.testBit_succ]
      simp [lt, Nat.lt_succ_of_lt lt]
    · simp
    · rw [if_neg (by omega), show i - k = i - k - 1 + 1 by omega, Nat.testBit_succ]
      have high : ¬ i < k + 1 := by omega
      simp [high]

/-- Reversing twice gives back the low bits. -/
theorem rev_rev (k x : Nat) : rev k (rev k x) = x % 2 ^ k := by
  refine Nat.eq_of_testBit_eq fun i => ?_
  rw [testBit_rev, testBit_rev, Nat.testBit_mod_two_pow]
  by_cases h : i < k
  · have back : k - 1 - (k - 1 - i) = i := by omega
    have inside : k - 1 - i < k := by omega
    simp [h, back, inside]
  · simp [h]

theorem rev_injective {k x y : Nat} (hx : x < 2 ^ k) (hy : y < 2 ^ k) (h : rev k x = rev k y) : x = y := by
  have back := congrArg (rev k) h
  rwa [rev_rev, rev_rev, Nat.mod_eq_of_lt hx, Nat.mod_eq_of_lt hy] at back

/-- The bits that a reversed code begins with are those of the code's own beginning. -/
theorem rev_mod_two_pow {k l : Nat} (le : k ≤ l) (x : Nat) : rev l x % 2 ^ k = rev k (x >>> (l - k)) := by
  refine Nat.eq_of_testBit_eq fun i => ?_
  rw [Nat.testBit_mod_two_pow, testBit_rev, testBit_rev, Nat.testBit_shiftRight]
  by_cases h : i < k
  · have same : l - k + (k - 1 - i) = l - 1 - i := by omega
    simp [h, h.trans_le le, same]
  · simp [h]

/-! ## The symbols with a code (rules R236, R238) -/

/-- The code of symbol `i`, as the stream holds it. -/
def symCode (L : List Nat) (i : Nat) : SymCode :=
  { sym := i, len := L.getD i 0, rev := rev (L.getD i 0) (canonicalCode L i) }

theorem mem_symCodes {L : List Nat} {c : SymCode} :
    c ∈ symCodes L ↔ ∃ i, i < L.length ∧ L.getD i 0 ≠ 0 ∧ c = symCode L i := by
  simp only [symCodes, List.mem_filterMap, List.mem_range]
  refine exists_congr fun i => and_congr_right fun _ => ?_
  split
  · simp_all
  · simp_all [symCode, eq_comm]

theorem mem_symCodes_len_le {L : List Nat} (short : ∀ x ∈ L, x ≤ 15) {c : SymCode} (hc : c ∈ symCodes L) : c.len ≤ 15 := by
  obtain ⟨i, hi, -, rfl⟩ := mem_symCodes.mp hc
  rw [symCode, List.getD_eq_getElem _ _ hi]
  exact short _ (List.getElem_mem hi)

/-- The bits `v` of the stream begin with the code. -/
def SymCode.begins (c : SymCode) (v : Nat) : Prop := v % 2 ^ c.len = c.rev

/-- At most one symbol's code stands at the beginning of the stream (rule R237). -/
theorem begins_unique {L : List Nat} (short : ∀ x ∈ L, x ≤ 15) (fit : overSubscribed L = false) {c d : SymCode}
    (hc : c ∈ symCodes L) (hd : d ∈ symCodes L) {v : Nat} (bc : c.begins v) (bd : d.begins v) : c = d := by
  wlog le : c.len ≤ d.len generalizing c d
  · exact (this hd hc bd bc (by omega)).symm
  obtain ⟨i, hi, coded, rfl⟩ := mem_symCodes.mp hc
  obtain ⟨j, hj, codedj, rfl⟩ := mem_symCodes.mp hd
  by_contra ne
  have dist : i ≠ j := fun h => ne (by rw [h])
  have fits := canonicalCode_lt_two_pow short fit hi coded
  have fitsj := canonicalCode_lt_two_pow short fit hj codedj
  simp only [symCode, SymCode.begins] at bc bd le
  have part : canonicalCode L j >>> (L.getD j 0 - L.getD i 0) < 2 ^ L.getD i 0 := by
    rw [Nat.shiftRight_eq_div_pow, Nat.div_lt_iff_lt_mul (by positivity), ← pow_add]
    rwa [Nat.add_sub_cancel' le]
  have same : rev (L.getD i 0) (canonicalCode L j >>> (L.getD j 0 - L.getD i 0)) = rev (L.getD i 0) (canonicalCode L i) := by
    rw [← rev_mod_two_pow le, ← bd, Nat.mod_mod_of_dvd _ (pow_dvd_pow 2 le), bc]
  exact canonicalCode_shiftRight_ne hi hj dist coded le (rev_injective part fits same)

/-- A search finds the one element that meets the condition. -/
theorem find?_eq_some_of_unique {α : Type} {p : α → Bool} {l : List α} {a : α} (mem : a ∈ l) (ha : p a = true)
    (unique : ∀ b ∈ l, p b = true → b = a) : l.find? p = some a := by
  cases h : l.find? p with
  | none => exact absurd ha (List.find?_eq_none.mp h a mem)
  | some b => rw [unique b (List.mem_of_find?_eq_some h) (List.find?_some h)]

/-! ## Subtables (rules R240, R241) -/

theorem le_foldl_max (l : List SymCode) (a : Nat) :
    a ≤ l.foldl (fun a c => max a c.len) a ∧ ∀ c ∈ l, c.len ≤ l.foldl (fun a c => max a c.len) a := by
  induction l generalizing a with
  | nil => simp
  | cons d l ih =>
    obtain ⟨start, all⟩ := ih (max a d.len)
    refine ⟨(le_max_left _ _).trans start, fun c hc => ?_⟩
    rcases List.mem_cons.mp hc with rfl | hc
    · exact (le_max_right _ _).trans start
    · exact all c hc

theorem foldl_max_le (l : List SymCode) {a b : Nat} (ha : a ≤ b) (hl : ∀ c ∈ l, c.len ≤ b) :
    l.foldl (fun a c => max a c.len) a ≤ b := by
  induction l generalizing a with
  | nil => exact ha
  | cons d l ih =>
    exact ih (max_le ha (hl d List.mem_cons_self)) fun c hc => hl c (List.mem_cons_of_mem _ hc)

/-- A long code is no longer than the longest of its root slot. -/
theorem len_le_kmax {root : Nat} {cs : List SymCode} {c : SymCode} (hc : c ∈ cs) (long : root < c.len) :
    c.len ≤ kmax root cs (c.rev % 2 ^ root) :=
  (le_foldl_max _ 0).2 c (by simp [hc, long])

theorem kmax_le {root : Nat} {cs : List SymCode} (short : ∀ c ∈ cs, c.len ≤ 15) (p : Nat) : kmax root cs p ≤ 15 :=
  foldl_max_le _ (by omega) fun c hc => short c (List.mem_of_mem_filter hc)

theorem mem_longCodes {root : Nat} {cs : List SymCode} {c : SymCode} :
    c ∈ longCodes root cs ↔ c ∈ cs ∧ root < c.len ∧ c.len < 16 := by
  simp only [longCodes, List.mem_flatMap, List.mem_range]
  constructor
  · rintro ⟨k, hk, hc⟩
    split at hc
    · simp only [List.mem_filter, beq_iff_eq] at hc
      exact ⟨hc.1, by omega, by omega⟩
    · simp at hc
  · rintro ⟨hc, long, le⟩
    refine ⟨c.len, le, ?_⟩
    rw [if_pos long]
    simp [hc]

/-- The index after the last one of a subtable. -/
def Subtable.stop (root : Nat) (t : Subtable) : Nat := t.base + 2 ^ (t.kmax - root)

/-- What the allocation walk keeps: subtables one after another between the root table and `nextfree`, each as long as its slot needs, no two under one slot. -/
structure Allocated (root : Nat) (cs : List SymCode) (acc : List Subtable × Nat) : Prop where
  free   : 2 ^ root ≤ acc.2
  base   : ∀ t ∈ acc.1, 2 ^ root ≤ t.base
  stop   : ∀ t ∈ acc.1, t.stop root ≤ acc.2
  kmax   : ∀ t ∈ acc.1, t.kmax = kmax root cs t.slot
  order  : acc.1.Pairwise fun t u => t.stop root ≤ u.base
  slots  : acc.1.Pairwise fun t u => t.slot ≠ u.slot

/-- The subtable that the walk adds for a slot which has none. -/
theorem Allocated.snoc {root : Nat} {cs : List SymCode} {subs : List Subtable} {free : Nat}
    (h : Allocated root cs (subs, free)) {p : Nat} (fresh : ∀ t ∈ subs, t.slot ≠ p) :
    Allocated root cs (subs ++ [{ slot := p, base := free, kmax := Machine.kmax root cs p }],
      free + 2 ^ (Machine.kmax root cs p - root)) where
  free := h.free.trans (Nat.le_add_right _ _)
  base := by
    simp only [List.mem_append, List.mem_singleton]
    rintro t (ht | rfl)
    · exact h.base t ht
    · exact h.free
  stop := by
    simp only [List.mem_append, List.mem_singleton]
    rintro t (ht | rfl)
    · exact (h.stop t ht).trans (Nat.le_add_right _ _)
    · exact le_rfl
  kmax := by
    simp only [List.mem_append, List.mem_singleton]
    rintro t (ht | rfl)
    · exact h.kmax t ht
    · rfl
  order := List.pairwise_append.mpr ⟨h.order, List.pairwise_singleton _ _, fun t ht u hu => by
    rw [List.mem_singleton.mp hu]
    exact h.stop t ht⟩
  slots := List.pairwise_append.mpr ⟨h.slots, List.pairwise_singleton _ _, fun t ht u hu => by
    rw [List.mem_singleton.mp hu]
    exact fresh t ht⟩

/-- The walk keeps its invariant and the subtables it has, and gives every long code's slot a subtable (rule R241). -/
theorem allocate_spec {root : Nat} {cs : List SymCode} (rest : List SymCode) {acc : List Subtable × Nat}
    (h : Allocated root cs acc) :
    Allocated root cs (allocate root cs rest acc) ∧ (∀ t ∈ acc.1, t ∈ (allocate root cs rest acc).1) ∧
      ∀ c ∈ rest, ∃ t ∈ (allocate root cs rest acc).1, t.slot = c.rev % 2 ^ root := by
  induction rest generalizing acc with
  | nil => exact ⟨h, fun _ ht => ht, fun c hc => absurd hc List.not_mem_nil⟩
  | cons c rest ih =>
    obtain ⟨subs, free⟩ := acc
    simp only [allocate]
    split
    · rename_i served
      obtain ⟨inv, kept, all⟩ := ih h
      refine ⟨inv, kept, fun d hd => ?_⟩
      rcases List.mem_cons.mp hd with rfl | hd
      · simp only [List.any_eq_true, beq_iff_eq] at served
        obtain ⟨t, ht, slot⟩ := served
        exact ⟨t, kept t ht, slot⟩
      · exact all d hd
    · rename_i unserved
      simp only [Bool.not_eq_true, List.any_eq_false, beq_iff_eq] at unserved
      obtain ⟨inv, kept, all⟩ := ih (h.snoc unserved)
      refine ⟨inv, fun t ht => kept t (List.mem_append_left _ ht), fun d hd => ?_⟩
      rcases List.mem_cons.mp hd with rfl | hd
      · exact ⟨_, kept _ (List.mem_append_right _ (List.mem_singleton.mpr rfl)), rfl⟩
      · exact all d hd

theorem subtables_allocated (root : Nat) (cs : List SymCode) : Allocated root cs (subtables root cs) :=
  (allocate_spec _ ⟨le_rfl, by simp, by simp, by simp, .nil, .nil⟩).1

theorem exists_subtable {root : Nat} {cs : List SymCode} (short : ∀ c ∈ cs, c.len ≤ 15) {c : SymCode} (hc : c ∈ cs)
    (long : root < c.len) : ∃ t ∈ (subtables root cs).1, t.slot = c.rev % 2 ^ root :=
  (allocate_spec _ ⟨le_rfl, by simp, by simp, by simp, .nil, .nil⟩).2.2 c
    (mem_longCodes.mpr ⟨hc, long, Nat.lt_succ_of_le (short c hc)⟩)

/-- Two elements of a list in which every two stand in a relation one way or the other. -/
theorem pairwise_or_of_mem {α : Type} {R : α → α → Prop} {l : List α} (h : l.Pairwise R) {a b : α} (ha : a ∈ l) (hb : b ∈ l)
    (ne : a ≠ b) : R a b ∨ R b a := by
  have symm : Std.Symm fun x y => R x y ∨ R y x := ⟨fun _ _ => Or.symm⟩
  have either : l.Pairwise fun x y => R x y ∨ R y x := h.imp Or.inl
  exact either.forall ha hb ne

/-- A subtable is found by its root slot. -/
theorem Allocated.find?_slot {root : Nat} {cs : List SymCode} {acc : List Subtable × Nat} (h : Allocated root cs acc)
    {t : Subtable} (ht : t ∈ acc.1) : (acc.1.find? fun u => u.slot == t.slot) = some t := by
  refine find?_eq_some_of_unique ht (by simp) fun u hu same => ?_
  by_contra ne
  rcases pairwise_or_of_mem h.slots hu ht ne with d | d <;> simp_all

/-- A subtable is found by each of its indices. -/
theorem Allocated.find?_index {root : Nat} {cs : List SymCode} {acc : List Subtable × Nat} (h : Allocated root cs acc)
    {t : Subtable} (ht : t ∈ acc.1) {q : Nat} (hq : q < 2 ^ (t.kmax - root)) :
    (acc.1.find? fun u => decide (u.base ≤ t.base + q) && decide (t.base + q < u.base + 2 ^ (u.kmax - root))) = some t := by
  refine find?_eq_some_of_unique ht (by simp [hq]) fun u hu inside => ?_
  simp only [Bool.and_eq_true, decide_eq_true_eq] at inside
  by_contra ne
  rcases pairwise_or_of_mem h.order hu ht ne with before | after
  · rw [Subtable.stop] at before
    omega
  · rw [Subtable.stop] at after
    omega

/-! ## What a build leaves (rules R239 to R245) -/

/-- A build that succeeds: the lengths are valid, the table fits, and its entries below `nextfree` are those of the rules. -/
theorem build_eq_some {m : Mode} {L : List Nat} {old T : Ram Entry} (h : build m L old = some T) :
    validLengths m L = true ∧ (subtables m.root (symCodes L)).2 ≤ m.cap ∧
      ∀ x, x < (subtables m.root (symCodes L)).2 →
        Ram.read Entry.zero T x = tableSlot m (symCodes L) (subtables m.root (symCodes L)).1 x := by
  simp only [build] at h
  split at h
  · rename_i valid
    split at h
    · cases h
    · rename_i fits
      cases h
      refine ⟨valid, Nat.le_of_not_lt fits, fun x hx => ?_⟩
      rw [Ram.read_ofFn, if_pos (by omega), if_pos hx]
  · cases h

theorem overSubscribed_of_valid {m : Mode} {L : List Nat} (h : validLengths m L = true) : overSubscribed L = false := by
  simp only [validLengths, Bool.and_eq_true, Bool.not_eq_true'] at h
  exact h.1

/-- A root entry of a built table. -/
theorem read_rootSlot_of_build {m : Mode} {L : List Nat} {old T : Ram Entry} (h : build m L old = some T) {x : Nat}
    (hx : x < 2 ^ m.root) :
    Ram.read Entry.zero T x = rootSlot m (symCodes L) (subtables m.root (symCodes L)).1 x := by
  rw [(build_eq_some h).2.2 x (hx.trans_le (subtables_allocated _ _).free), tableSlot, if_pos hx]

/-- A subtable entry of a built table. -/
theorem read_sub_of_build {m : Mode} {L : List Nat} {old T : Ram Entry} (h : build m L old = some T) {t : Subtable}
    (ht : t ∈ (subtables m.root (symCodes L)).1) {q : Nat} (hq : q < 2 ^ (t.kmax - m.root)) :
    Ram.read Entry.zero T (t.base + q) = subSlot m (symCodes L) t q := by
  have alloc := subtables_allocated m.root (symCodes L)
  have base := alloc.base t ht
  have stop := alloc.stop t ht
  rw [Subtable.stop] at stop
  rw [(build_eq_some h).2.2 _ (by omega), tableSlot, if_neg (by omega), alloc.find?_index ht hq]
  simp

/-! ## Entries -/

@[simp] theorem Entry.of_tag (tag info length : Nat) : (Entry.of tag info length).tag = BitVec.ofNat 8 tag := rfl
@[simp] theorem Entry.of_info (tag info length : Nat) : (Entry.of tag info length).info = BitVec.ofNat 16 info := rfl
@[simp] theorem Entry.of_length (tag info length : Nat) : (Entry.of tag info length).length = BitVec.ofNat 8 length := rfl

/-- What holds of every entry of a list and of the default holds at every index. -/
theorem getD_of_forall {α : Type} {P : α → Prop} {l : List α} {d : α} (all : ∀ a ∈ l, P a) (hd : P d) (n : Nat) : P (l.getD n d) := by
  by_cases h : n < l.length
  · rw [List.getD_eq_getElem _ _ h]
    exact all _ (List.getElem_mem h)
  · rwa [List.getD_eq_default _ _ (by omega)]

theorem lextra_le (s : Nat) : lextra s ≤ 5 := getD_of_forall (P := fun p : Nat × Nat => p.2 ≤ 5) (by decide) (by decide) _

theorem dextra_le (s : Nat) : dextra s ≤ 13 := getD_of_forall (P := fun p : Nat × Nat => p.2 ≤ 13) (by decide) (by decide) _

/-- The tags of a symbol's entry (rules R248, R249, R250). -/
theorem symEntry_tag (m : Mode) (i k : Nat) :
    (symEntry m i k).tag = tagLiteral ∨ (symEntry m i k).tag = tagEndOfBlock ∨ (symEntry m i k).tag = tagInvalid ∨
      (symEntry m i k).tag.toNat ≤ 13 := by
  have small (e info len : Nat) (he : e ≤ 13) : (Entry.of e info len).tag.toNat ≤ 13 := by
    rw [Entry.of_tag, BitVec.toNat_ofNat]
    exact (Nat.mod_le _ _).trans he
  cases m with
  | lens =>
    simp only [symEntry]
    split_ifs
    · exact .inl rfl
    · exact .inr (.inl rfl)
    · exact .inr (.inr (.inr (small _ _ _ ((lextra_le i).trans (by omega)))))
    · exact .inr (.inr (.inl rfl))
  | dists =>
    simp only [symEntry]
    split_ifs
    · exact .inr (.inr (.inr (small _ _ _ (dextra_le i))))
    · exact .inr (.inr (.inl rfl))
  | codes => exact .inl rfl

theorem symEntry_tag_ne_subtable (m : Mode) (i k : Nat) : (symEntry m i k).tag ≠ tagSubtable := by
  rcases symEntry_tag m i k with h | h | h | h
  · rw [h]; decide
  · rw [h]; decide
  · rw [h]; decide
  · intro sub
    rw [sub] at h
    exact absurd h (by decide)

theorem Mode.cap_lt (m : Mode) : m.cap < 2 ^ 16 := by cases m <;> decide

/-! ## Lookups (rules R242, R247, R382) -/

theorem lookup_of_not_subtable {T : Nat → Entry} {root v : Nat} (h : (T (v % 2 ^ root)).tag ≠ tagSubtable) :
    lookup T root v = T (v % 2 ^ root) := by
  simp only [lookup, if_neg h]

/-- Behind a SUBTABLE entry the lookup goes on in the subtable. -/
theorem lookup_of_subtable {T : Nat → Entry} {root v base k : Nat} (h : T (v % 2 ^ root) = Entry.of 0x12 base k)
    (hb : base < 2 ^ 16) (hk : k ≤ 15) : lookup T root v = T (base + (v % 2 ^ k) >>> root) := by
  have info : (Entry.of 0x12 base k).info.toNat = base := by
    rw [Entry.of_info, BitVec.toNat_ofNat, Nat.mod_eq_of_lt hb]
  have length : (Entry.of 0x12 base k).length.toNat = k := by
    rw [Entry.of_length, BitVec.toNat_ofNat, Nat.mod_eq_of_lt (by omega)]
  have sub : (Entry.of 0x12 base k).tag = tagSubtable := rfl
  simp only [lookup, h, if_pos sub, info, length]

/-- A root slot holds the entry of the short code that stands at the beginning. -/
theorem rootSlot_of_begins {m : Mode} {L : List Nat} (short : ∀ x ∈ L, x ≤ 15) (fit : overSubscribed L = false)
    (subs : List Subtable) {c : SymCode} (hc : c ∈ symCodes L) (le : c.len ≤ m.root) {x : Nat} (begins : c.begins x) :
    rootSlot m (symCodes L) subs x = symEntry m c.sym c.len := by
  have found : ((symCodes L).find? fun c => decide (c.len ≤ m.root) && x % 2 ^ c.len == c.rev) = some c := by
    refine find?_eq_some_of_unique hc (by simpa [le, SymCode.begins] using begins) fun d hd h => ?_
    simp only [Bool.and_eq_true, decide_eq_true_eq, beq_iff_eq] at h
    exact begins_unique short fit hd hc h.2 begins
  simp only [rootSlot, found]

/-- Codes no longer than the root width are seen in the root index alone. -/
theorem SymCode.begins_mod {c : SymCode} {k : Nat} (le : c.len ≤ k) (v : Nat) : c.begins (v % 2 ^ k) ↔ c.begins v := by
  rw [SymCode.begins, SymCode.begins, Nat.mod_mod_of_dvd _ (pow_dvd_pow 2 le)]

/-- A root slot under which a subtable hangs holds its SUBTABLE entry, where no short code stands at the beginning. -/
theorem rootSlot_of_subtable {m : Mode} {cs : List SymCode} {subs : List Subtable} {t : Subtable} {x : Nat}
    (none : ∀ c ∈ cs, c.len ≤ m.root → ¬ c.begins x) (found : (subs.find? fun u => u.slot == x) = some t) :
    rootSlot m cs subs x = Entry.of 0x12 t.base t.kmax := by
  have nothing : (cs.find? fun c => decide (c.len ≤ m.root) && x % 2 ^ c.len == c.rev) = Option.none := by
    rw [List.find?_eq_none]
    intro c hc h
    simp only [Bool.and_eq_true, decide_eq_true_eq, beq_iff_eq] at h
    exact none c hc h.1 h.2
  simp only [rootSlot, nothing, found]

/-- The bits of a long code: those of its root slot, and those of its index in the subtable. -/
theorem SymCode.begins_iff_of_long {root k : Nat} {c : SymCode} (long : root < c.len) (le : c.len ≤ k) (v : Nat) :
    c.begins v ↔ v % 2 ^ root = c.rev % 2 ^ root ∧
      ((v % 2 ^ k) >>> root) % 2 ^ (c.len - root) = c.rev >>> root := by
  have split (n : Nat) : n = n % 2 ^ root + 2 ^ root * (n >>> root) := by
    rw [Nat.shiftRight_eq_div_pow]
    exact (Nat.mod_add_div n _).symm
  have low : v % 2 ^ c.len % 2 ^ root = v % 2 ^ root := Nat.mod_mod_of_dvd _ (pow_dvd_pow 2 long.le)
  have high : (v % 2 ^ c.len) >>> root = ((v % 2 ^ k) >>> root) % 2 ^ (c.len - root) := by
    refine Nat.eq_of_testBit_eq fun i => ?_
    simp only [Nat.testBit_shiftRight, Nat.testBit_mod_two_pow]
    by_cases h : i < c.len - root
    · have h1 : root + i < c.len := by omega
      have h2 : root + i < k := by omega
      simp [h, h1, h2]
    · have h1 : ¬ root + i < c.len := by omega
      simp [h, h1]
  rw [SymCode.begins]
  constructor
  · intro h
    rw [← low, ← high, h]
    exact ⟨rfl, rfl⟩
  · rintro ⟨h1, h2⟩
    rw [split (v % 2 ^ c.len), split c.rev, low, high, h1, h2]

/-- The index in a subtable lies within it. -/
theorem subIndex_lt {root k : Nat} (v : Nat) (le : root ≤ k) : (v % 2 ^ k) >>> root < 2 ^ (k - root) := by
  rw [Nat.shiftRight_eq_div_pow, Nat.div_lt_iff_lt_mul (by positivity), ← pow_add, Nat.sub_add_cancel le]
  exact Nat.mod_lt _ (by positivity)

/-- A slot of a subtable holds the entry of the long code that stands at the beginning. -/
theorem subSlot_of_begins {m : Mode} {L : List Nat} (short : ∀ x ∈ L, x ≤ 15) (fit : overSubscribed L = false)
    {t : Subtable} (kmax : t.kmax = kmax m.root (symCodes L) t.slot) {c : SymCode} (hc : c ∈ symCodes L)
    (long : m.root < c.len) (slot : t.slot = c.rev % 2 ^ m.root) {v : Nat} (begins : c.begins v) :
    subSlot m (symCodes L) t ((v % 2 ^ t.kmax) >>> m.root) = symEntry m c.sym c.len := by
  have within {d : SymCode} (hd : d ∈ symCodes L) (long : m.root < d.len) (slot : t.slot = d.rev % 2 ^ m.root) :
      d.len ≤ t.kmax := by
    rw [kmax, slot]
    exact len_le_kmax hd long
  have root : v % 2 ^ m.root = t.slot := slot ▸ ((SymCode.begins_iff_of_long long (within hc long slot) v).mp begins).1
  have found : ((symCodes L).find? fun d => decide (m.root < d.len) && d.rev % 2 ^ m.root == t.slot &&
      ((v % 2 ^ t.kmax) >>> m.root) % 2 ^ (d.len - m.root) == d.rev >>> m.root) = some c := by
    refine find?_eq_some_of_unique hc ?_ fun d hd h => ?_
    · have index := ((SymCode.begins_iff_of_long long (within hc long slot) v).mp begins).2
      simp [long, slot.symm, index]
    · simp only [Bool.and_eq_true, decide_eq_true_eq, beq_iff_eq] at h
      obtain ⟨⟨longd, slotd⟩, index⟩ := h
      have begd : d.begins v := (SymCode.begins_iff_of_long longd (within hd longd slotd.symm) v).mpr
        ⟨by rw [root, slotd], index⟩
      exact begins_unique short fit hd hc begd begins
  simp only [subSlot, found]

/-- A subtable of a built table: its fields fit those of an entry. -/
theorem subtable_bounds {m : Mode} {L : List Nat} {old T : Ram Entry} (short : ∀ x ∈ L, x ≤ 15) (h : build m L old = some T)
    {t : Subtable} (ht : t ∈ (subtables m.root (symCodes L)).1) :
    t.base + 2 ^ (t.kmax - m.root) ≤ m.cap ∧ t.base < 2 ^ 16 ∧ t.kmax ≤ 15 := by
  have alloc := subtables_allocated m.root (symCodes L)
  have stop := (alloc.stop t ht).trans (build_eq_some h).2.1
  rw [Subtable.stop] at stop
  have cap := m.cap_lt
  refine ⟨stop, (Nat.le_add_right _ _).trans_lt (stop.trans_lt cap), ?_⟩
  rw [alloc.kmax t ht]
  exact kmax_le (fun c hc => mem_symCodes_len_le short hc) _

/-- The root entry of a symbol with a short code (rule R239). -/
theorem read_of_short_code {m : Mode} {L : List Nat} {old T : Ram Entry} (short : ∀ x ∈ L, x ≤ 15)
    (h : build m L old = some T) {c : SymCode} (hc : c ∈ symCodes L) (le : c.len ≤ m.root) {x : Nat} (hx : x < 2 ^ m.root)
    (begins : c.begins x) : Ram.read Entry.zero T x = symEntry m c.sym c.len := by
  rw [read_rootSlot_of_build h hx]
  exact rootSlot_of_begins short (overSubscribed_of_valid (build_eq_some h).1) _ hc le begins

/-- The lookup returns the symbol whose code stands at the beginning (rule R247). -/
theorem lookup_of_begins {m : Mode} {L : List Nat} {old T : Ram Entry} (short : ∀ x ∈ L, x ≤ 15)
    (h : build m L old = some T) {c : SymCode} (hc : c ∈ symCodes L) {v : Nat} (begins : c.begins v) :
    lookup (Ram.read Entry.zero T) m.root v = symEntry m c.sym c.len := by
  have fit := overSubscribed_of_valid (build_eq_some h).1
  have root : v % 2 ^ m.root < 2 ^ m.root := Nat.mod_lt _ (by positivity)
  by_cases le : c.len ≤ m.root
  · have entry := read_of_short_code short h hc le root ((SymCode.begins_mod le v).mpr begins)
    rw [lookup_of_not_subtable (by rw [entry]; exact symEntry_tag_ne_subtable _ _ _), entry]
  · have long : m.root < c.len := by omega
    have alloc := subtables_allocated m.root (symCodes L)
    obtain ⟨t, ht, slot⟩ := exists_subtable (root := m.root) (fun c hc => mem_symCodes_len_le short hc) hc long
    have kmax := alloc.kmax t ht
    have within : c.len ≤ t.kmax := by rw [kmax, slot]; exact len_le_kmax hc long
    have under : v % 2 ^ m.root = t.slot := by
      rw [slot]
      exact ((SymCode.begins_iff_of_long long within v).mp begins).1
    have none (d : SymCode) (hd : d ∈ symCodes L) (le' : d.len ≤ m.root) : ¬ d.begins (v % 2 ^ m.root) := fun b => by
      have same := begins_unique short fit hd hc ((SymCode.begins_mod le' v).mp b) begins
      exact le (same ▸ le')
    obtain ⟨-, base, top⟩ := subtable_bounds short h ht
    have entry : Ram.read Entry.zero T (v % 2 ^ m.root) = Entry.of 0x12 t.base t.kmax := by
      rw [read_rootSlot_of_build h root]
      refine rootSlot_of_subtable none ?_
      rw [under]
      exact alloc.find?_slot ht
    rw [lookup_of_subtable entry base top, read_sub_of_build h ht (subIndex_lt v (by omega))]
    exact subSlot_of_begins short fit kmax hc long slot begins

/-! ## Totality (rules R245, R246) -/

/-- A slot of a subtable holds a symbol's entry or the filler. -/
theorem subSlot_total (m : Mode) (cs : List SymCode) (t : Subtable) (q : Nat) :
    subSlot m cs t q = fillerEntry ∨ ∃ c ∈ cs, subSlot m cs t q = symEntry m c.sym c.len := by
  unfold subSlot
  split
  · rename_i c found
    exact .inr ⟨c, List.mem_of_find?_eq_some found, rfl⟩
  · exact .inl rfl

/-- A root slot holds a symbol's entry, the SUBTABLE entry of a subtable, or the filler. -/
theorem rootSlot_total (m : Mode) (cs : List SymCode) (subs : List Subtable) (x : Nat) :
    rootSlot m cs subs x = fillerEntry ∨ (∃ c ∈ cs, rootSlot m cs subs x = symEntry m c.sym c.len) ∨
      ∃ t ∈ subs, rootSlot m cs subs x = Entry.of 0x12 t.base t.kmax := by
  unfold rootSlot
  split
  · rename_i c found
    exact .inr (.inl ⟨c, List.mem_of_find?_eq_some found, rfl⟩)
  · split
    · rename_i t found
      exact .inr (.inr ⟨t, List.mem_of_find?_eq_some found, rfl⟩)
    · exact .inl rfl

/-- A subtable hangs under a slot because a longer code passes through it, so its codes are longer than the root width. -/
theorem root_lt_kmax {root : Nat} {cs : List SymCode} (rest : List SymCode) (sub : ∀ c ∈ rest, c ∈ cs ∧ root < c.len)
    {acc : List Subtable × Nat} (h : ∀ t ∈ acc.1, root < t.kmax) : ∀ t ∈ (allocate root cs rest acc).1, root < t.kmax := by
  induction rest generalizing acc with
  | nil => exact h
  | cons c rest ih =>
    obtain ⟨subs, free⟩ := acc
    have tail : ∀ c ∈ rest, c ∈ cs ∧ root < c.len := fun d hd => sub d (List.mem_cons_of_mem _ hd)
    obtain ⟨hc, long⟩ := sub c List.mem_cons_self
    simp only [allocate]
    split
    · exact ih tail h
    · refine ih tail ?_
      simp only [List.mem_append, List.mem_singleton]
      rintro t (ht | rfl)
      · exact h t ht
      · exact long.trans_le (len_le_kmax hc long)

theorem subtables_rootWidth_lt_kmax (root : Nat) (cs : List SymCode) : ∀ t ∈ (subtables root cs).1, root < t.kmax :=
  root_lt_kmax _ (fun _ hc => ⟨(mem_longCodes.mp hc).1, (mem_longCodes.mp hc).2.1⟩) (by simp)

/-- Whatever the reservoir holds, the lookup ends at a symbol's entry or at the filler. -/
theorem lookup_total {m : Mode} {L : List Nat} {old T : Ram Entry} (short : ∀ x ∈ L, x ≤ 15) (h : build m L old = some T)
    (v : Nat) : lookup (Ram.read Entry.zero T) m.root v = fillerEntry ∨
      ∃ c ∈ symCodes L, lookup (Ram.read Entry.zero T) m.root v = symEntry m c.sym c.len := by
  have root : v % 2 ^ m.root < 2 ^ m.root := Nat.mod_lt _ (by positivity)
  have entry := read_rootSlot_of_build h root
  rcases rootSlot_total m (symCodes L) (subtables m.root (symCodes L)).1 (v % 2 ^ m.root) with filler | ⟨c, hc, sym⟩ | ⟨t, ht, sub⟩
  · rw [filler] at entry
    rw [lookup_of_not_subtable (by rw [entry]; decide)]
    exact .inl entry
  · rw [sym] at entry
    rw [lookup_of_not_subtable (by rw [entry]; exact symEntry_tag_ne_subtable _ _ _)]
    exact .inr ⟨c, hc, entry⟩
  · rw [sub] at entry
    obtain ⟨-, base, top⟩ := subtable_bounds short h ht
    have index := subIndex_lt v (subtables_rootWidth_lt_kmax _ _ t ht).le
    rw [lookup_of_subtable entry base top, read_sub_of_build h ht index]
    exact subSlot_total _ _ _ _

/-- Every root entry is of a known kind, and every subtable lies within the capacity. -/
theorem root_entry_kinds {m : Mode} {L : List Nat} {old T : Ram Entry} (short : ∀ x ∈ L, x ≤ 15) (h : build m L old = some T)
    {x : Nat} (hx : x < 2 ^ m.root) {e : Entry} (he : Ram.read Entry.zero T x = e) :
    e.tag = tagLiteral ∨ e.tag = tagEndOfBlock ∨ e.tag = tagInvalid ∨ e.tag.toNat ≤ 13 ∨
      (e.tag = tagSubtable ∧ e.info.toNat + 2 ^ (e.length.toNat - m.root) ≤ m.cap) := by
  rw [read_rootSlot_of_build h hx] at he
  rcases rootSlot_total m (symCodes L) (subtables m.root (symCodes L)).1 x with filler | ⟨c, -, sym⟩ | ⟨t, ht, sub⟩
  · rw [← he, filler]
    exact .inr (.inr (.inl rfl))
  · rw [← he, sym]
    rcases symEntry_tag m c.sym c.len with k | k | k | k
    · exact .inl k
    · exact .inr (.inl k)
    · exact .inr (.inr (.inl k))
    · exact .inr (.inr (.inr (.inl k)))
  · obtain ⟨cap, base, top⟩ := subtable_bounds short h ht
    rw [← he, sub]
    refine .inr (.inr (.inr (.inr ⟨rfl, ?_⟩)))
    rwa [Entry.of_info, Entry.of_length, BitVec.toNat_ofNat, BitVec.toNat_ofNat, Nat.mod_eq_of_lt base,
      Nat.mod_eq_of_lt (by omega)]

end Sys2Proof.Machine

namespace Sys2Proof

open Machine

/-- Settles O7: a short code's entry stands in every root slot that begins with it, a long code's behind the SUBTABLE entry of its slot. -/
theorem lookupReturnsTheSymbol : Obligations.LookupReturnsTheSymbol := fun _ L _ _ short built i hi coded _ begins =>
  lookup_of_begins short built (c := symCode L i) (mem_symCodes.mpr ⟨i, hi, coded, rfl⟩) begins

/-- Settles O8: the entries of root and subtables are symbols' entries, SUBTABLE entries and fillers, by their definition. -/
theorem builtTablesAreTotal : Obligations.BuiltTablesAreTotal := by
  intro m L old T short built
  refine ⟨fun x hx => root_entry_kinds short built hx rfl, fun v => ?_⟩
  rcases lookup_total short built v with filler | ⟨c, hc, sym⟩
  · exact .inl filler
  · obtain ⟨i, hi, coded, rfl⟩ := mem_symCodes.mp hc
    exact .inr ⟨i, hi, coded, sym⟩

end Sys2Proof

/-! # The table builder (41_table_builder.md): the fixed ROMs and the empty distance code -/

namespace Sys2Proof.Machine

/-! ## Codes with no subtable -/

theorem Mode.two_pow_rootWidth_le_cap (m : Mode) : 2 ^ m.root ≤ m.cap := by cases m <;> decide

theorem subtables_of_short {root : Nat} {cs : List SymCode} (short : ∀ c ∈ cs, c.len ≤ root) :
    subtables root cs = ([], 2 ^ root) := by
  have none : longCodes root cs = [] := by
    refine List.eq_nil_iff_forall_not_mem.mpr fun c hc => ?_
    obtain ⟨mem, long, -⟩ := mem_longCodes.mp hc
    have := short c mem
    omega
  rw [subtables, none, allocate]

/-- Valid lengths with no code longer than the root width build a table. -/
theorem exists_build_of_short {m : Mode} {L : List Nat} (valid : validLengths m L = true)
    (short : ∀ c ∈ symCodes L, c.len ≤ m.root) (old : Ram Entry) : ∃ T, build m L old = some T := by
  have fits := m.two_pow_rootWidth_le_cap
  simp only [build, valid, if_true, subtables_of_short short, if_neg (Nat.not_lt.mpr fits)]
  exact ⟨_, rfl⟩

/-- No length exceeds a bound, so no code does. -/
theorem symCodes_len_le {L : List Nat} {n : Nat} (le : ∀ x ∈ L, x ≤ n) : ∀ c ∈ symCodes L, c.len ≤ n := by
  intro c hc
  obtain ⟨i, hi, -, rfl⟩ := mem_symCodes.mp hc
  rw [symCode, List.getD_eq_getElem _ _ hi]
  exact le _ (List.getElem_mem hi)

/-! ## No code at all (rules R234, R235) -/

theorem countLen_replicate_zero (n k : Nat) : countLen (List.replicate n 0) (k + 1) = 0 := by
  simp [countLen, List.count_replicate]

theorem validLengths_replicate_zero (n : Nat) : validLengths .dists (List.replicate n 0) = true := by
  have used : usedSymbols (List.replicate n 0) = 0 := by simp [usedSymbols, countLen_replicate_zero]
  have left (k : Nat) : 0 ≤ leftAfter (List.replicate n 0) k := by
    simp [leftAfter_eq_sum, countLen_replicate_zero]
  have fit : overSubscribed (List.replicate n 0) = false := by
    simp only [overSubscribed, List.any_eq_false, decide_eq_true_eq, not_lt]
    exact fun k _ => left (k + 1)
  simp [validLengths, fit, permittedIncomplete, used]

theorem symCodes_replicate_zero (n : Nat) : symCodes (List.replicate n 0) = [] := by
  refine List.eq_nil_iff_forall_not_mem.mpr fun c hc => ?_
  obtain ⟨i, hi, coded, -⟩ := mem_symCodes.mp hc
  rw [List.getD_eq_getElem _ _ hi, List.getElem_replicate] at coded
  exact coded rfl

/-! ## The fixed codes (rules R131, R132, R236) -/

theorem length_fixedLitLens : fixedLitLens.length = 288 := by
  simp only [fixedLitLens, List.length_append, List.length_replicate]

theorem length_fixedDistLens : fixedDistLens.length = 32 := by simp [fixedDistLens]

/-- How often a length stands among the first `i` of the fixed literal/length code. -/
theorem count_take_fixedLitLens (i k : Nat) :
    (fixedLitLens.take i).count k =
      (if k = 8 then min i 144 + min (i - 280) 8 else 0) + (if k = 9 then min (i - 144) 112 else 0) +
        (if k = 7 then min (i - 256) 24 else 0) := by
  simp only [fixedLitLens, List.take_append, List.take_replicate, List.count_append, List.count_replicate,
    List.length_append, List.length_replicate, beq_iff_eq]
  split_ifs <;> omega

theorem countLen_fixedLitLens (k : Nat) :
    countLen fixedLitLens k = (if k = 8 then 152 else 0) + (if k = 9 then 112 else 0) + (if k = 7 then 24 else 0) := by
  have h := count_take_fixedLitLens 288 k
  rw [← length_fixedLitLens, List.take_length] at h
  simpa [countLen, length_fixedLitLens] using h

theorem le_of_mem_fixedLitLens : ∀ x ∈ fixedLitLens, x ≤ 9 := by
  simp only [fixedLitLens, List.mem_append, List.mem_replicate]
  omega

theorem validLengths_fixedLitLens : validLengths .lens fixedLitLens = true := by
  simp [validLengths, overSubscribed, leftAfter, countLen_fixedLitLens, List.range_succ]

theorem getD_fixedLitLens {i : Nat} (hi : i < 288) : fixedLitLens.getD i 0 = (fixedLLCode i).1 := by
  simp only [fixedLitLens, fixedLLCode, List.getD_eq_getElem?_getD, List.getElem?_append, List.length_append,
    List.length_replicate, List.getElem?_replicate]
  split_ifs <;> first | rfl | omega

/-- The canonical codes of the fixed lengths are those of rule R131. -/
theorem canonicalCode_fixedLitLens {i : Nat} (hi : i < 288) : canonicalCode fixedLitLens i = (fixedLLCode i).2 := by
  have f7 : firstCode fixedLitLens 7 = 0 := by simp [firstCode, countLen_fixedLitLens]
  have f8 : firstCode fixedLitLens 8 = 0x30 := by simp [firstCode, countLen_fixedLitLens]
  have f9 : firstCode fixedLitLens 9 = 0x190 := by simp [firstCode, countLen_fixedLitLens]
  rw [canonicalCode, getD_fixedLitLens hi, count_take_fixedLitLens, fixedLLCode]
  split_ifs <;> simp_all <;> omega

theorem symCode_fixedLitLens {s : Nat} (hs : s < 288) :
    symCode fixedLitLens s = { sym := s, len := (fixedLLCode s).1, rev := rev (fixedLLCode s).1 (fixedLLCode s).2 } := by
  rw [symCode, getD_fixedLitLens hs, canonicalCode_fixedLitLens hs]

theorem getD_fixedDistLens {i : Nat} (hi : i < 32) : fixedDistLens.getD i 0 = 5 := by
  rw [fixedDistLens, List.getD_eq_getElem _ _ (by simpa using hi), List.getElem_replicate]

/-- The canonical codes of the fixed distance lengths are the symbols themselves (rule R132). -/
theorem canonicalCode_fixedDistLens {i : Nat} (hi : i < 32) : canonicalCode fixedDistLens i = i := by
  have f5 : firstCode fixedDistLens 5 = 0 := by decide
  rw [canonicalCode, getD_fixedDistLens hi, f5, fixedDistLens, List.take_replicate, List.count_replicate]
  simp
  omega

theorem symCode_fixedDistLens {s : Nat} (hs : s < 32) : symCode fixedDistLens s = { sym := s, len := 5, rev := rev 5 s } := by
  rw [symCode, getD_fixedDistLens hs, canonicalCode_fixedDistLens hs]

/-! ## The closed forms (rules R251, R252) -/

/-- The first `k` bits of a code are those of its high end. -/
theorem rev_of_mod {k l : Nat} (le : k ≤ l) (x : Nat) : rev k (x % 2 ^ k) = rev l x / 2 ^ (l - k) := by
  rw [← Nat.shiftRight_eq_div_pow]
  refine Nat.eq_of_testBit_eq fun i => ?_
  rw [Nat.testBit_shiftRight, testBit_rev, testBit_rev, Nat.testBit_mod_two_pow]
  by_cases h : i < k
  · have h1 : k - 1 - i < k := by omega
    have h2 : l - k + i < l := by omega
    have h3 : l - 1 - (l - k + i) = k - 1 - i := by omega
    simp [h, h1, h2, h3]
  · have h2 : ¬ l - k + i < l := by omega
    simp [h, h2]

/-- A code that stands at the beginning, read from its most significant bit, is its value. -/
theorem rev_of_begins {k c x : Nat} (hc : c < 2 ^ k) (h : x % 2 ^ k = rev k c) : rev k (x % 2 ^ k) = c := by
  rw [h, rev_rev, Nat.mod_eq_of_lt hc]

/-- The closed form by the nine bits of the index, most significant first. -/
theorem ltFixed_eq (x : Nat) :
    ltFixed x =
      if rev 9 x / 4 ≤ 0x17 then symEntry .lens (256 + rev 9 x / 4) 7
      else if 0x30 ≤ rev 9 x / 2 ∧ rev 9 x / 2 ≤ 0xBF then symEntry .lens (rev 9 x / 2 - 0x30) 8
      else if 0xC0 ≤ rev 9 x / 2 ∧ rev 9 x / 2 ≤ 0xC7 then symEntry .lens (280 + rev 9 x / 2 - 0xC0) 8
      else symEntry .lens (144 + rev 9 x - 0x190) 9 := by
  have h7 : rev 7 (x % 128) = rev 9 x / 4 := rev_of_mod (k := 7) (l := 9) (by omega) x
  have h8 : rev 8 (x % 256) = rev 9 x / 2 := rev_of_mod (k := 8) (l := 9) (by omega) x
  rw [ltFixed, h7, h8]

/-- The ranges of the fixed literal/length code (rule R131). -/
theorem fixedLLCode_cases {s : Nat} (hs : s < 288) :
    (s ≤ 143 ∧ fixedLLCode s = (8, 0x30 + s)) ∨ (143 < s ∧ s ≤ 255 ∧ fixedLLCode s = (9, 0x190 + (s - 144))) ∨
      (255 < s ∧ s ≤ 279 ∧ fixedLLCode s = (7, s - 256)) ∨ (279 < s ∧ fixedLLCode s = (8, 0xC0 + (s - 280))) := by
  unfold fixedLLCode
  split_ifs <;> simp <;> omega

/-- The closed form gives each index the entry of the symbol whose code it begins with. -/
theorem ltFixed_of_code {s x : Nat} (hs : s < 288) (h : x % 2 ^ (fixedLLCode s).1 = rev (fixedLLCode s).1 (fixedLLCode s).2) :
    ltFixed x = symEntry .lens s (fixedLLCode s).1 := by
  have high (k : Nat) (le : k ≤ 9) (c : Nat) (hc : c < 2 ^ k) (h : x % 2 ^ k = rev k c) : rev 9 x / 2 ^ (9 - k) = c := by
    rw [← rev_of_mod le, rev_of_begins hc h]
  rw [ltFixed_eq]
  rcases fixedLLCode_cases hs with ⟨r, e⟩ | ⟨l, r, e⟩ | ⟨l, r, e⟩ | ⟨l, e⟩
  · rw [e] at h ⊢
    have value : rev 9 x / 2 = 0x30 + s := high 8 (by omega) _ (by norm_num; omega) h
    rw [if_neg (by omega), if_pos (by omega), value, Nat.add_sub_cancel_left]
  · rw [e] at h ⊢
    have value : rev 9 x / 1 = 0x190 + (s - 144) := high 9 (by omega) _ (by norm_num; omega) h
    rw [if_neg (by omega), if_neg (by omega), if_neg (by omega), show 144 + rev 9 x - 0x190 = s by omega]
  · rw [e] at h ⊢
    have value : rev 9 x / 4 = s - 256 := high 7 (by omega) _ (by norm_num; omega) h
    rw [if_pos (by omega), value, Nat.add_sub_cancel' (by omega)]
  · rw [e] at h ⊢
    have value : rev 9 x / 2 = 0xC0 + (s - 280) := high 8 (by omega) _ (by norm_num; omega) h
    rw [if_neg (by omega), if_neg (by omega), if_pos (by omega), show 280 + rev 9 x / 2 - 0xC0 = s by omega]

/-- Every index begins with the code of a symbol: the fixed literal/length code is complete. -/
theorem exists_fixedLLCode (x : Nat) :
    ∃ s, s < 288 ∧ x % 2 ^ (fixedLLCode s).1 = rev (fixedLLCode s).1 (fixedLLCode s).2 := by
  have top : rev 9 x < 512 := rev_lt 9 x
  have begin (k : Nat) (le : k ≤ 9) : x % 2 ^ k = rev k (rev 9 x / 2 ^ (9 - k)) := by
    rw [← rev_of_mod le, rev_rev, Nat.mod_mod]
  rcases Nat.lt_or_ge (rev 9 x / 4) 24 with h | h
  · refine ⟨256 + rev 9 x / 4, by omega, ?_⟩
    have e : fixedLLCode (256 + rev 9 x / 4) = (7, rev 9 x / 4) := by
      rw [fixedLLCode, if_neg (by omega), if_neg (by omega), if_pos (by omega), Nat.add_sub_cancel_left]
    rw [e]
    exact begin 7 (by omega)
  rcases Nat.lt_or_ge (rev 9 x / 2) 192 with h' | h'
  · refine ⟨rev 9 x / 2 - 0x30, by omega, ?_⟩
    have e : fixedLLCode (rev 9 x / 2 - 0x30) = (8, rev 9 x / 2) := by
      rw [fixedLLCode, if_pos (by omega), Nat.add_sub_cancel' (by omega)]
    rw [e]
    exact begin 8 (by omega)
  rcases Nat.lt_or_ge (rev 9 x / 2) 200 with h'' | h''
  · refine ⟨280 + (rev 9 x / 2 - 0xC0), by omega, ?_⟩
    have e : fixedLLCode (280 + (rev 9 x / 2 - 0xC0)) = (8, rev 9 x / 2) := by
      rw [fixedLLCode, if_neg (by omega), if_neg (by omega), if_neg (by omega), Nat.add_sub_cancel_left,
        Nat.add_sub_cancel' (by omega)]
    rw [e]
    exact begin 8 (by omega)
  · refine ⟨144 + (rev 9 x - 0x190), by omega, ?_⟩
    have e : fixedLLCode (144 + (rev 9 x - 0x190)) = (9, rev 9 x) := by
      rw [fixedLLCode, if_neg (by omega), if_pos (by omega), Nat.add_sub_cancel_left, Nat.add_sub_cancel' (by omega)]
    rw [e]
    simpa using begin 9 (by omega)

/-- The closed form of the distance ROM gives each index the symbol whose code it begins with. -/
theorem dtFixed_of_code {s x : Nat} (hs : s < 32) (h : x % 2 ^ 5 = rev 5 s) : dtFixed x = symEntry .dists s 5 := by
  rw [dtFixed, show x % 32 = x % 2 ^ 5 from rfl, rev_of_begins hs h]

theorem exists_fixedDCode (x : Nat) : ∃ s, s < 32 ∧ x % 2 ^ 5 = rev 5 s :=
  ⟨rev 5 (x % 2 ^ 5), rev_lt 5 _, by rw [rev_rev, Nat.mod_mod]⟩

end Sys2Proof.Machine

namespace Sys2Proof

open Machine

/-- Settles O9: with no code there is no symbol's entry, so every lookup ends at the filler. -/
theorem emptyDistanceCodeIsInvalid : Obligations.EmptyDistanceCodeIsInvalid := by
  intro n old
  have none := symCodes_replicate_zero n
  obtain ⟨T, built⟩ := exists_build_of_short (validLengths_replicate_zero n) (by simp [none]) old
  have zero : ∀ x ∈ List.replicate n 0, x ≤ 15 := fun x hx => by rw [List.eq_of_mem_replicate hx]; omega
  refine ⟨T, built, fun v => ?_⟩
  rcases lookup_total zero built v with filler | ⟨c, hc, -⟩
  · exact filler
  · rw [none] at hc
    exact absurd hc List.not_mem_nil

/-- Settles O4: every index begins with the code of one symbol, whose entry the closed form and the builder both give it. -/
theorem fixedTablesAreBuilt : Obligations.FixedTablesAreBuilt := by
  constructor
  · have short := le_of_mem_fixedLitLens
    obtain ⟨T, built⟩ := exists_build_of_short validLengths_fixedLitLens (symCodes_len_le short) []
    refine ⟨T, built, fun x hx => ?_⟩
    obtain ⟨s, hs, begins⟩ := exists_fixedLLCode x
    have coded : (fixedLLCode s).1 ≠ 0 := by rcases fixedLLCode_cases hs with h | h | h | h <;> simp [h]
    have mem : symCode fixedLitLens s ∈ symCodes fixedLitLens :=
      mem_symCodes.mpr ⟨s, by rwa [length_fixedLitLens], by rwa [getD_fixedLitLens hs], rfl⟩
    rw [ltFixed_of_code hs begins]
    rw [symCode_fixedLitLens hs] at mem
    exact read_of_short_code (fun x hx => (short x hx).trans (by omega)) built mem (Laws.WireForm.fixedLLCode_length s) hx begins
  · have short : ∀ x ∈ fixedDistLens, x ≤ 5 := by decide
    have root : 5 ≤ Mode.root .dists := by decide
    obtain ⟨T, built⟩ := exists_build_of_short (m := .dists) (L := fixedDistLens) (by decide)
      (fun c hc => (symCodes_len_le short c hc).trans root) []
    refine ⟨T, built, fun x hx => ?_⟩
    obtain ⟨s, hs, begins⟩ := exists_fixedDCode x
    have mem : symCode fixedDistLens s ∈ symCodes fixedDistLens :=
      mem_symCodes.mpr ⟨s, by rwa [length_fixedDistLens], by rw [getD_fixedDistLens hs]; omega, rfl⟩
    rw [dtFixed_of_code hs begins]
    rw [symCode_fixedDistLens hs] at mem
    exact read_of_short_code (fun x hx => (short x hx).trans (by omega)) built mem root hx begins

end Sys2Proof

/-! # Decoding (30_encoding.md): what the decoder can find -/

namespace Sys2Proof

open Machine

/-! ## The symbols and their tables (rules R386, R418, R454, R455) -/

theorem lengthSymbol_lbase {s : Nat} (lo : 257 ≤ s) (hi : s < 286) : lengthSymbol (lbase s) (lextra s) = some s := by
  interval_cases s <;> rfl

theorem distanceSymbol_dbase {s : Nat} (hi : s < 30) : distanceSymbol (dbase s) (dextra s) = some s := by
  interval_cases s <;> rfl

/-- The place that a search by both fields finds in a list of pairs. -/
theorem findIdx?_pair {l : List (Nat × Nat)} {b e k : Nat} (h : (l.findIdx? fun p => p.1 == b && p.2 == e) = some k) :
    k < l.length ∧ l.getD k (0, 0) = (b, e) := by
  obtain ⟨hk, found, -⟩ := List.findIdx?_eq_some_iff_getElem.mp h
  simp only [Bool.and_eq_true, beq_iff_eq] at found
  exact ⟨hk, by rw [List.getD_eq_getElem _ _ hk]; exact Prod.ext found.1 found.2⟩

/-- The fields of a length symbol are its own. -/
theorem lengthSymbol_eq_some {b e s : Nat} (h : lengthSymbol b e = some s) :
    257 ≤ s ∧ s < 286 ∧ lbase s = b ∧ lextra s = e := by
  obtain ⟨k, found, rfl⟩ := Option.map_eq_some_iff.mp h
  obtain ⟨hk, fields⟩ := findIdx?_pair found
  have len : lengthTable.length = 29 := rfl
  rw [lbase, lextra, Nat.add_sub_cancel, fields]
  exact ⟨by omega, by omega, rfl, rfl⟩

/-- The fields of a distance symbol are its own. -/
theorem distanceSymbol_eq_some {b e s : Nat} (h : distanceSymbol b e = some s) : s < 30 ∧ dbase s = b ∧ dextra s = e := by
  obtain ⟨hk, fields⟩ := findIdx?_pair h
  rw [dbase, dextra, fields]
  exact ⟨hk, rfl, rfl⟩

/-! ## The meanings of the symbols (rules R345, R417, R450) -/

/-- Every code-length symbol from 0 to 15 has an instruction; it appends the symbol's value. -/
theorem clInstr_of_le {n : Nat} (le : n ≤ 15) :
    ∃ i, clInstr n = some i ∧ i.wellFormed = true ∧ ∀ s, exec i s = codeLength (BitVec.ofNat 4 n) s := by
  interval_cases n <;> exact ⟨_, rfl, rfl, fun _ => rfl⟩

/-- Every length symbol has an instruction, whose meaning is given by its base and its extra bits. -/
theorem lengthInstr_of_lt {sym : Nat} (lo : 257 ≤ sym) (hi : sym < 286) (x : Nat) :
    ∃ i, lengthInstr sym x = some i ∧ i.wellFormed = true ∧
      ∀ s, exec i s = lengthElement (lbase sym) (lextra sym) (x % 2 ^ lextra sym) s := by
  have none (s : State) (b : Nat) : lengthElement b 0 0 s = lengthElement b 0 (x % 2 ^ 0) s := by
    rw [pow_zero, Nat.mod_one]
  obtain plain | rfl | ⟨first, last⟩ : sym ≤ 264 ∨ sym = 285 ∨ 265 ≤ sym ∧ sym ≤ 284 := by omega
  · interval_cases sym <;> exact ⟨_, rfl, rfl, fun s => none s _⟩
  · exact ⟨_, rfl, rfl, fun s => none s _⟩
  · interval_cases sym <;> exact ⟨_, rfl, rfl, fun _ => rfl⟩

/-- Every distance symbol has an instruction, whose meaning is given by its base and its extra bits. -/
theorem distanceInstr_of_lt {sym : Nat} (hi : sym < 30) (x : Nat) :
    ∃ i, distanceInstr sym x = some i ∧ i.wellFormed = true ∧
      ∀ s, exec i s = distanceElement (dbase sym) (dextra sym) (x % 2 ^ dextra sym) s := by
  have none (s : State) (b : Nat) : distanceElement b 0 0 s = distanceElement b 0 (x % 2 ^ 0) s := by
    rw [pow_zero, Nat.mod_one]
  obtain plain | extra : sym ≤ 3 ∨ 4 ≤ sym := by omega
  · interval_cases sym <;> exact ⟨_, rfl, rfl, fun s => none s _⟩
  · interval_cases sym <;> exact ⟨_, rfl, rfl, fun _ => rfl⟩

theorem distanceInstr_lt {sym x : Nat} {i : Instr} (h : distanceInstr sym x = some i) : sym < 30 := by
  by_contra ge
  unfold distanceInstr at h
  split at h <;> first | omega | cases h

/-! ## One read of a symbol, by the entry that is looked up (rules R382, R383, R418) -/

theorem Entry.of_length_toNat {tag info k : Nat} (hk : k ≤ 15) : (Entry.of tag info k).length.toNat = k := by
  rw [Entry.of_length, BitVec.toNat_ofNat, Nat.mod_eq_of_lt (by omega)]

section Symbol

variable {T : Codebook} {v n : Nat} {e : Entry}

theorem decodeLL_of_literal (look : lookup T.lt Config.lroot v = e) (held : e.length.toNat ≤ n) (tag : e.tag = tagLiteral) :
    decodeLL T v n = .elem (.lit (e.info.setWidth 8)) e.length.toNat := by
  simp only [decodeLL, look, if_neg (Nat.not_lt.mpr held), if_pos tag]

theorem decodeLL_of_endOfBlock (look : lookup T.lt Config.lroot v = e) (held : e.length.toNat ≤ n)
    (tag : e.tag = tagEndOfBlock) : decodeLL T v n = .elem .eob e.length.toNat := by
  have other : e.tag ≠ tagLiteral := by rw [tag]; decide
  simp only [decodeLL, look, if_neg (Nat.not_lt.mpr held), if_neg other, if_pos tag]

theorem decodeLL_of_invalid (look : lookup T.lt Config.lroot v = e) (held : e.length.toNat ≤ n) (tag : e.tag = tagInvalid) :
    decodeLL T v n = .elem (if v.testBit (e.length.toNat - 1) then .ll287Invalid else .ll286Invalid) e.length.toNat := by
  have other : e.tag ≠ tagLiteral ∧ e.tag ≠ tagEndOfBlock := by rw [tag]; decide
  simp only [decodeLL, look, if_neg (Nat.not_lt.mpr held), if_neg other.1, if_neg other.2, if_pos tag]

/-- A number of extra bits is none of the tags with a name. -/
theorem tag_ne_of_toNat_le (le : e.tag.toNat ≤ 13) : e.tag ≠ tagLiteral ∧ e.tag ≠ tagEndOfBlock ∧ e.tag ≠ tagInvalid := by
  refine ⟨?_, ?_, ?_⟩ <;> (intro h; rw [h] at le; exact absurd le (by decide))

theorem decodeLL_of_length {sym : Nat} (look : lookup T.lt Config.lroot v = e) (held : e.length.toNat ≤ n)
    (hs : lengthSymbol e.info.toNat e.tag.toNat = some sym) :
    decodeLL T v n = if e.tag = 0 then found (lengthInstr sym 0) e.length.toNat
      else .operand (.lenExtra e.info.toNat e.tag.toNat) e.length.toNat := by
  obtain ⟨-, -, -, extra⟩ := lengthSymbol_eq_some hs
  obtain ⟨h1, h2, h3⟩ := tag_ne_of_toNat_le (e := e) (extra ▸ (lextra_le sym).trans (by omega))
  simp only [decodeLL, look, if_neg (Nat.not_lt.mpr held), if_neg h1, if_neg h2, if_neg h3, hs]

theorem decodeDist_of_invalid (look : lookup T.dt Config.droot v = e) (held : e.length.toNat ≤ n) (tag : e.tag = tagInvalid) :
    decodeDist T v n = .elem (if v.testBit (e.length.toNat - 1) then .dist31Invalid else .dist30Invalid) e.length.toNat := by
  simp only [decodeDist, look, if_neg (Nat.not_lt.mpr held), if_pos tag]

theorem decodeDist_of_distance {sym : Nat} (look : lookup T.dt Config.droot v = e) (held : e.length.toNat ≤ n)
    (hs : distanceSymbol e.info.toNat e.tag.toNat = some sym) :
    decodeDist T v n = if e.tag = 0 then found (distanceInstr sym 0) e.length.toNat
      else .operand (.distExtra e.info.toNat e.tag.toNat) e.length.toNat := by
  obtain ⟨-, -, extra⟩ := distanceSymbol_eq_some hs
  obtain ⟨-, -, h⟩ := tag_ne_of_toNat_le (e := e) (extra ▸ dextra_le sym)
  simp only [decodeDist, look, if_neg (Nat.not_lt.mpr held), if_neg h, hs]

theorem decodeLenExtra_of_symbol {b x sym : Nat} (hs : lengthSymbol b x = some sym) (held : x ≤ n) :
    decodeLenExtra b x v n = found (lengthInstr sym (v % 2 ^ x)) x := by
  rw [decodeLenExtra, if_neg (Nat.not_lt.mpr held), hs, Option.bind_some]

theorem decodeDistExtra_of_symbol {b x sym : Nat} (hs : distanceSymbol b x = some sym) (held : x ≤ n) :
    decodeDistExtra b x v n = found (distanceInstr sym (v % 2 ^ x)) x := by
  rw [decodeDistExtra, if_neg (Nat.not_lt.mpr held), hs, Option.bind_some]

end Symbol

/-! ## What stands at a position (rules R121 to R128) -/

/-- The elements that a position can hold. -/
inductive Position.Holds : Position → Instr → Prop
  | stored (f : Bool) : Holds .hdr (.blockStored f)
  | fixed (f : Bool) : Holds .hdr (.blockFixed f)
  | dynamic (f : Bool) : Holds .hdr (.blockDynamic f)
  | reserved (f : Bool) : Holds .hdr (.blockReserved f)
  | storedHdr (len nlen : BitVec 16) : Holds .storedHdr (.storedhdr len nlen)
  | storedData : Holds .storedData .storedData
  | counts (l d : BitVec 5) (c : BitVec 4) : Holds .dynHdr (.dynhdr l d c)
  | cll (len : BitVec 3) : Holds .cll (.cll len)
  | codeLength {n : Nat} {i : Instr} (le : n ≤ 15) (h : clInstr n = some i) : Holds .clsym i
  | rep16 (x : BitVec 2) : Holds (.repExtra 16) (.rep16 x)
  | rep17 (x : BitVec 3) : Holds (.repExtra 17) (.rep17 x)
  | rep18 (x : BitVec 7) : Holds (.repExtra 18) (.rep18 x)
  | literal (b : Byte) : Holds .ll (.lit b)
  | endOfBlock : Holds .ll .eob
  | invalid286 : Holds .ll .ll286Invalid
  | invalid287 : Holds .ll .ll287Invalid
  | length {b e sym x : Nat} {i : Instr} (hs : lengthSymbol b e = some sym) (h : lengthInstr sym x = some i) : Holds .ll i
  | lenExtra {b e sym x : Nat} {i : Instr} (hs : lengthSymbol b e = some sym) (h : lengthInstr sym x = some i) :
    Holds (.lenExtra b e) i
  | invalid30 : Holds .dist .dist30Invalid
  | invalid31 : Holds .dist .dist31Invalid
  | distance {b e sym x : Nat} {i : Instr} (hs : distanceSymbol b e = some sym) (h : distanceInstr sym x = some i) :
    Holds .dist i
  | distExtra {b e sym x : Nat} {i : Instr} (hs : distanceSymbol b e = some sym) (h : distanceInstr sym x = some i) :
    Holds (.distExtra b e) i

/-- The operand positions that follow a symbol at a position. -/
inductive Position.Leads : Position → Position → Prop
  | rep {sym : Nat} (lo : 16 ≤ sym) (hi : sym ≤ 18) : Leads .clsym (.repExtra sym)
  | length {b e : Nat} (h : (lengthSymbol b e).isSome = true) : Leads .ll (.lenExtra b e)
  | distance {b e : Nat} (h : (distanceSymbol b e).isSome = true) : Leads .dist (.distExtra b e)

/-- The operand positions: those at which extra bits stand. -/
def Position.isOperand : Position → Bool
  | .repExtra _ | .lenExtra _ _ | .distExtra _ _ => true
  | _ => false

theorem Position.Leads.isOperand {p q : Position} (h : p.Leads q) : q.isOperand = true := by cases h <;> rfl

theorem Position.Leads.not_isOperand {p q : Position} (h : p.Leads q) : p.isOperand = false := by cases h <;> rfl

/-! ## Inversion of the decoder, position by position -/

/-- What a decoder may answer at a position with `n` bits held: elements and operands that stand there, no wider than `n`. -/
def Decoded.Fits (p : Position) (n : Nat) : Decoded → Prop
  | .elem i w => p.Holds i ∧ w ≤ n
  | .operand q w => p.Leads q ∧ w ≤ n
  | .short => True
  | .reject _ => True

theorem found_fits {p : Position} {n w : Nat} {o : Option Instr} (le : w ≤ n) (h : ∀ i, o = some i → p.Holds i) :
    (found o w).Fits p n := by
  cases o with
  | none => trivial
  | some i => exact ⟨h i rfl, le⟩

theorem decodeHdr_fits (v n : Nat) : (decodeHdr v n).Fits .hdr n := by
  unfold decodeHdr
  split
  · trivial
  · have le : 3 ≤ n := by omega
    dsimp only
    split
    · exact ⟨.stored _, le⟩
    · exact ⟨.fixed _, le⟩
    · exact ⟨.dynamic _, le⟩
    · exact ⟨.reserved _, le⟩

theorem decodeStoredHdr_fits (v n : Nat) : (decodeStoredHdr v n).Fits .storedHdr n := by
  unfold decodeStoredHdr
  split
  · trivial
  · exact ⟨.storedHdr _ _, by omega⟩

theorem decodeDynHdr_fits (v n : Nat) : (decodeDynHdr v n).Fits .dynHdr n := by
  unfold decodeDynHdr
  split
  · trivial
  · exact ⟨.counts _ _ _, by omega⟩

theorem decodeCll_fits (v n : Nat) : (decodeCll v n).Fits .cll n := by
  unfold decodeCll
  split
  · trivial
  · exact ⟨.cll _, by omega⟩

theorem decodeClsym_fits (T : Codebook) (v n : Nat) : (decodeClsym T v n).Fits .clsym n := by
  unfold decodeClsym
  dsimp only
  split
  · trivial
  · have le := Nat.le_of_not_lt ‹_›
    split
    · exact found_fits le fun i h => .codeLength ‹_› h
    · split
      · exact ⟨.rep (by omega) ‹_›, le⟩
      · trivial

theorem decodeRepExtra_fits (sym v n : Nat) : (decodeRepExtra sym v n).Fits (.repExtra sym) n := by
  unfold decodeRepExtra
  split
  · split
    · trivial
    · exact ⟨.rep16 _, by omega⟩
  · split
    · trivial
    · exact ⟨.rep17 _, by omega⟩
  · split
    · trivial
    · exact ⟨.rep18 _, by omega⟩
  · trivial

theorem decodeLenExtra_fits (b e v n : Nat) : (decodeLenExtra b e v n).Fits (.lenExtra b e) n := by
  unfold decodeLenExtra
  split
  · trivial
  · refine found_fits (Nat.le_of_not_lt ‹_›) fun i h => ?_
    obtain ⟨sym, hs, hi⟩ := Option.bind_eq_some_iff.mp h
    exact .lenExtra hs hi

theorem decodeDistExtra_fits (b e v n : Nat) : (decodeDistExtra b e v n).Fits (.distExtra b e) n := by
  unfold decodeDistExtra
  split
  · trivial
  · refine found_fits (Nat.le_of_not_lt ‹_›) fun i h => ?_
    obtain ⟨sym, hs, hi⟩ := Option.bind_eq_some_iff.mp h
    exact .distExtra hs hi

theorem decodeLL_fits (T : Codebook) (v n : Nat) : (decodeLL T v n).Fits .ll n := by
  unfold decodeLL
  dsimp only
  split
  · trivial
  have le := Nat.le_of_not_lt ‹_›
  split
  · exact ⟨.literal _, le⟩
  split
  · exact ⟨.endOfBlock, le⟩
  split
  · split
    · exact ⟨.invalid287, le⟩
    · exact ⟨.invalid286, le⟩
  split
  · trivial
  rename_i sym hs
  split
  · exact found_fits le fun i h => .length hs h
  · exact ⟨.length (by rw [hs]; rfl), le⟩

theorem decodeDist_fits (T : Codebook) (v n : Nat) : (decodeDist T v n).Fits .dist n := by
  unfold decodeDist
  dsimp only
  split
  · trivial
  have le := Nat.le_of_not_lt ‹_›
  split
  · split
    · exact ⟨.invalid31, le⟩
    · exact ⟨.invalid30, le⟩
  split
  · trivial
  rename_i sym hs
  split
  · exact found_fits le fun i h => .distance hs h
  · exact ⟨.distance (by rw [hs]; rfl), le⟩

theorem decodeAt_fits (T : Codebook) (p : Position) (v n : Nat) : (decodeAt T p v n).Fits p n := by
  cases p with
  | hdr => exact decodeHdr_fits v n
  | storedHdr => exact decodeStoredHdr_fits v n
  | storedData => exact ⟨.storedData, Nat.zero_le n⟩
  | dynHdr => exact decodeDynHdr_fits v n
  | cll => exact decodeCll_fits v n
  | clsym => exact decodeClsym_fits T v n
  | ll => exact decodeLL_fits T v n
  | dist => exact decodeDist_fits T v n
  | repExtra sym => exact decodeRepExtra_fits sym v n
  | lenExtra b e => exact decodeLenExtra_fits b e v n
  | distExtra b e => exact decodeDistExtra_fits b e v n

theorem decodeAt_elem {T : Codebook} {p : Position} {v n : Nat} {i : Instr} {w : Nat} (h : decodeAt T p v n = .elem i w) :
    p.Holds i ∧ w ≤ n := by
  have fits := decodeAt_fits T p v n
  rwa [h] at fits

theorem decodeAt_operand {T : Codebook} {p q : Position} {v n k : Nat} (h : decodeAt T p v n = .operand q k) :
    p.Leads q ∧ k ≤ n := by
  have fits := decodeAt_fits T p v n
  rwa [h] at fits

/-- A whole element: one read, or a symbol and then its extra bits (rule R133). -/
theorem decode_elem_cases {T : Codebook} {p : Position} {v n : Nat} {i : Instr} {w : Nat} (h : decode T p v n = .elem i w) :
    decodeAt T p v n = .elem i w ∨
      ∃ q k w', decodeAt T p v n = .operand q k ∧ decodeAt T q (v >>> k) (n - k) = .elem i w' ∧ w = k + w' := by
  unfold decode at h
  split at h
  · rename_i q k hp
    split at h
    · rename_i j w' hq
      cases h
      exact .inr ⟨q, k, w', hp, hq, rfl⟩
    · cases h
    · cases h
    · cases h
  · exact .inl h

/-- Whatever a position holds is well formed. -/
theorem Position.Holds.wellFormed {p : Position} {i : Instr} (h : p.Holds i) : i.wellFormed = true := by
  cases h with
  | codeLength le h =>
    obtain ⟨j, hj, wf, -⟩ := clInstr_of_le le
    rw [h] at hj
    exact Option.some.inj hj ▸ wf
  | length hs h | lenExtra hs h =>
    obtain ⟨lo, hi, -⟩ := lengthSymbol_eq_some hs
    obtain ⟨j, hj, wf, -⟩ := lengthInstr_of_lt lo hi _
    rw [h] at hj
    exact Option.some.inj hj ▸ wf
  | distance hs h | distExtra hs h =>
    obtain ⟨j, hj, wf, -⟩ := distanceInstr_of_lt (distanceSymbol_eq_some hs).1 _
    rw [h] at hj
    exact Option.some.inj hj ▸ wf
  | _ => rfl

/-- A host write that is a command is a well-formed one (rule R62). -/
theorem decodeHostWrite_wellFormed {off val : Word} {i : Instr} (h : decodeHostWrite off val = some i) :
    i.wellFormed = true := by
  unfold decodeHostWrite at h
  split at h
  · obtain rfl := Option.some.inj h
    split_ifs with h1 h2 h3
    · rfl
    · rfl
    · rfl
    · simp [Instr.wellFormed, definedOpcode, h1, h2, h3]
  · split_ifs at h <;> cases h <;> rfl

/-- Settles O3: each read of the decoder finds what its position can hold, in the bits it holds. -/
theorem decodedInstructionsAreWellFormed : Obligations.DecodedInstructionsAreWellFormed := by
  refine ⟨fun T p v n i w h => ?_, fun off val i h => decodeHostWrite_wellFormed h⟩
  rcases decode_elem_cases h with one | ⟨q, k, w', symbol, extra, rfl⟩
  · obtain ⟨holds, le⟩ := decodeAt_elem one
    exact ⟨holds.wellFormed, le⟩
  · obtain ⟨-, le⟩ := decodeAt_operand symbol
    obtain ⟨holds, le'⟩ := decodeAt_elem extra
    exact ⟨holds.wellFormed, by omega⟩

end Sys2Proof

/-! # Encoding (30_encoding.md): the words of the opcode table decode to their instructions -/

namespace Sys2Proof

open Machine

/-! ## Codes in the stream (rules R12, R238) -/

/-- The value of a code's bits in stream order is the reversed code. -/
theorem bitsVal_codeBits (k c : Nat) : bitsVal (codeBits k c) = rev k c := by
  have bits : codeBits k c = fieldBits k (rev k c) := by
    refine List.map_congr_left fun i hi => ?_
    rw [testBit_rev, decide_eq_true (List.mem_range.mp hi), Bool.true_and]
  rw [bits, bitsVal_fieldBits, Nat.mod_eq_of_lt (rev_lt k c)]

/-- A string that begins with a symbol's code has the reversed code as its low bits. -/
theorem bitsVal_symbolBits_mod (code : Nat → Nat × Nat) (s : Nat) (rest : List Bool) :
    bitsVal (symbolBits code s ++ rest) % 2 ^ (code s).1 = rev (code s).1 (code s).2 := by
  have h := bitsVal_append_mod (symbolBits code s) rest
  rwa [symbolBits, length_codeBits, bitsVal_codeBits] at h

theorem length_symbolBits (code : Nat → Nat × Nat) (s : Nat) : (symbolBits code s).length = (code s).1 :=
  length_codeBits _ _

/-- Behind a symbol's code stand the bits that follow it. -/
theorem bitsVal_symbolBits_shiftRight (code : Nat → Nat × Nat) (s : Nat) (rest : List Bool) :
    bitsVal (symbolBits code s ++ rest) >>> (code s).1 = bitsVal rest := by
  rw [Nat.shiftRight_eq_div_pow, ← length_symbolBits, bitsVal_append_div]

/-! ## The tables of the opcode table's words select the symbol whose code comes next -/

theorem lookup_ltFixed {s v : Nat} (hs : s < 288) (h : v % 2 ^ (fixedLLCode s).1 = rev (fixedLLCode s).1 (fixedLLCode s).2) :
    lookup ltFixed Config.lroot v = symEntry .lens s (fixedLLCode s).1 := by
  have le : (fixedLLCode s).1 ≤ Config.lroot := Laws.WireForm.fixedLLCode_length s
  have entry : ltFixed (v % 2 ^ Config.lroot) = symEntry .lens s (fixedLLCode s).1 :=
    ltFixed_of_code hs (by rw [Nat.mod_mod_of_dvd _ (pow_dvd_pow 2 le), h])
  rw [lookup_of_not_subtable (by rw [entry]; exact symEntry_tag_ne_subtable _ _ _), entry]

theorem lookup_dtFixed {s v : Nat} (hs : s < 32) (h : v % 2 ^ 5 = rev 5 s) :
    lookup dtFixed Config.droot v = symEntry .dists s 5 := by
  have le : 5 ≤ Config.droot := by decide
  have entry : dtFixed (v % 2 ^ Config.droot) = symEntry .dists s 5 :=
    dtFixed_of_code hs (by rw [Nat.mod_mod_of_dvd _ (pow_dvd_pow 2 le), h])
  rw [lookup_of_not_subtable (by rw [entry]; exact symEntry_tag_ne_subtable _ _ _), entry]

theorem build_tableClLens : build .codes tableClLens [] = some tableCt := by
  have short : ∀ x ∈ tableClLens, x ≤ 5 := by decide
  have root : 5 ≤ Mode.root .codes := by decide
  obtain ⟨T, built⟩ := exists_build_of_short (m := .codes) (L := tableClLens) (by decide)
    (fun c hc => (symCodes_len_le short c hc).trans root) []
  rw [tableCt, built, Option.getD_some]

theorem lookup_tableCt {s v : Nat} (hs : s < 19)
    (h : v % 2 ^ (tableCodes.cl s).1 = rev (tableCodes.cl s).1 (tableCodes.cl s).2) :
    lookup tableBook.ct Config.croot v = symEntry .codes s (tableCodes.cl s).1 := by
  have coded : ∀ s < 19, tableClLens.getD s 0 ≠ 0 := by decide
  exact lookup_of_begins (by decide) build_tableClLens (c := symCode tableClLens s)
    (mem_symCodes.mpr ⟨s, hs, coded s hs, rfl⟩) h

/-! ## Symbols with their extra bits -/

/-- These bits at a position spell this instruction, whatever follows them in the stream. -/
def Spells (p : Position) (bs : List Bool) (i : Instr) : Prop :=
  ∀ rest : List Bool, decode tableBook p (bitsVal (bs ++ rest)) (bs.length + rest.length) = .elem i bs.length

/-- An element that one read settles. -/
theorem decode_of_elem {T : Codebook} {p : Position} {v n : Nat} {i : Instr} {w : Nat} (h : decodeAt T p v n = .elem i w) :
    decode T p v n = .elem i w := by
  rw [decode, h]

/-- An element in two reads: a symbol, and its extra bits. -/
theorem decode_of_operand {T : Codebook} {p q : Position} {v n k w : Nat} {i : Instr} (symbol : decodeAt T p v n = .operand q k)
    (extra : decodeAt T q (v >>> k) (n - k) = .elem i w) : decode T p v n = .elem i (k + w) := by
  rw [decode, symbol]
  simp only [extra]

/-- A symbol with no extra bits spells what one read answers. -/
theorem spells_symbol {p : Position} {code : Nat → Nat × Nat} {s : Nat} {i : Instr}
    (h : ∀ v n, v % 2 ^ (code s).1 = rev (code s).1 (code s).2 → (code s).1 ≤ n → decodeAt tableBook p v n = .elem i (code s).1) :
    Spells p (symbolBits code s) i := by
  intro rest
  rw [length_symbolBits]
  exact decode_of_elem (h _ _ (bitsVal_symbolBits_mod code s rest) (by omega))

/-- A symbol with extra bits spells what the read of the operand answers. -/
theorem spells_operand {p q : Position} {code : Nat → Nat × Nat} {s e x : Nat} {i : Instr}
    (symbol : ∀ v n, v % 2 ^ (code s).1 = rev (code s).1 (code s).2 → (code s).1 ≤ n →
      decodeAt tableBook p v n = .operand q (code s).1)
    (extra : ∀ v n, v % 2 ^ e = x % 2 ^ e → e ≤ n → decodeAt tableBook q v n = .elem i e) :
    Spells p (symbolBits code s ++ fieldBits e x) i := by
  intro rest
  rw [List.length_append, length_symbolBits, length_fieldBits, List.append_assoc]
  refine decode_of_operand (symbol _ _ (bitsVal_symbolBits_mod code s _) (by omega)) (extra _ _ ?_ (by omega))
  rw [bitsVal_symbolBits_shiftRight]
  have h := bitsVal_append_mod (fieldBits e x) rest
  rwa [length_fieldBits, bitsVal_fieldBits] at h

/-- The low bits of a number as a bit vector. -/
theorem ofNat_of_mod_eq {w v : Nat} {x : BitVec w} (h : v % 2 ^ w = x.toNat % 2 ^ w) : BitVec.ofNat w v = x := by
  apply BitVec.eq_of_toNat_eq
  rw [BitVec.toNat_ofNat, h, Nat.mod_eq_of_lt x.isLt]

/-! ### Code-length symbols (rule R127) -/

theorem tableCodes_cl_length : ∀ s < 19, 1 ≤ (tableCodes.cl s).1 ∧ (tableCodes.cl s).1 ≤ 5 := by decide

/-- What one read answers at a code-length symbol. -/
theorem decodeClsym_of_code {s v n : Nat} (hs : s < 19)
    (h : v % 2 ^ (tableCodes.cl s).1 = rev (tableCodes.cl s).1 (tableCodes.cl s).2) (hn : (tableCodes.cl s).1 ≤ n) :
    decodeClsym tableBook v n =
      if s ≤ 15 then found (clInstr s) (tableCodes.cl s).1 else .operand (.repExtra s) (tableCodes.cl s).1 := by
  obtain ⟨-, le⟩ := tableCodes_cl_length s hs
  have info : (symEntry .codes s (tableCodes.cl s).1).info.toNat = s := by
    rw [symEntry, Entry.of_info, BitVec.toNat_ofNat, Nat.mod_eq_of_lt (by omega)]
  have length : (symEntry .codes s (tableCodes.cl s).1).length.toNat = (tableCodes.cl s).1 := by
    rw [symEntry, Entry.of_length, BitVec.toNat_ofNat, Nat.mod_eq_of_lt (by omega)]
  simp only [decodeClsym, lookup_tableCt hs h, info, length, if_neg (Nat.not_lt.mpr hn)]
  rw [if_pos (show s ≤ 18 by omega)]

theorem spells_cl {s : Nat} {i : Instr} (hs : s ≤ 15) (hi : clInstr s = some i) : Spells .clsym (symbolBits tableCodes.cl s) i := by
  refine spells_symbol fun v n h hn => ?_
  rw [decodeAt, decodeClsym_of_code (by omega) h hn, if_pos hs, hi, found]

/-- A repeat symbol, given what its extra bits spell. -/
theorem spells_rep {s e x : Nat} {i : Instr} (lo : 15 < s) (hi : s < 19)
    (extra : ∀ v n, v % 2 ^ e = x % 2 ^ e → e ≤ n → decodeRepExtra s v n = .elem i e) :
    Spells .clsym (symbolBits tableCodes.cl s ++ fieldBits e x) i := by
  refine spells_operand (q := .repExtra s) (fun v n h hn => ?_) extra
  rw [decodeAt, decodeClsym_of_code hi h hn, if_neg (by omega)]

theorem spells_rep16 (x : BitVec 2) : Spells .clsym (symbolBits tableCodes.cl 16 ++ fieldBits 2 x.toNat) (.rep16 x) :=
  spells_rep (by omega) (by omega) fun v n h hn => by
    simp only [decodeRepExtra, if_neg (Nat.not_lt.mpr hn), ofNat_of_mod_eq h]

theorem spells_rep17 (x : BitVec 3) : Spells .clsym (symbolBits tableCodes.cl 17 ++ fieldBits 3 x.toNat) (.rep17 x) :=
  spells_rep (by omega) (by omega) fun v n h hn => by
    simp only [decodeRepExtra, if_neg (Nat.not_lt.mpr hn), ofNat_of_mod_eq h]

theorem spells_rep18 (x : BitVec 7) : Spells .clsym (symbolBits tableCodes.cl 18 ++ fieldBits 7 x.toNat) (.rep18 x) :=
  spells_rep (by omega) (by omega) fun v n h hn => by
    simp only [decodeRepExtra, if_neg (Nat.not_lt.mpr hn), ofNat_of_mod_eq h]

/-! ### Literal/length symbols (rule R131) -/

theorem fixedLLCode_length_pos (s : Nat) : 1 ≤ (fixedLLCode s).1 := by
  unfold fixedLLCode
  split_ifs <;> simp

theorem fixedLLCode_length_le (s : Nat) : (fixedLLCode s).1 ≤ 15 := (Laws.WireForm.fixedLLCode_length s).trans (by omega)

/-- A literal/length symbol with no extra bits, given what its entry spells. -/
theorem spells_ll {s : Nat} {i : Instr} {e : Entry} (hs : s < 288) (entry : symEntry .lens s (fixedLLCode s).1 = e)
    (length : e.length.toNat = (fixedLLCode s).1)
    (read : ∀ v n, v % 2 ^ (fixedLLCode s).1 = rev (fixedLLCode s).1 (fixedLLCode s).2 →
      lookup tableBook.lt Config.lroot v = e → e.length.toNat ≤ n → decodeLL tableBook v n = .elem i e.length.toNat) :
    Spells .ll (symbolBits tableCodes.ll s) i := by
  refine spells_symbol fun v n h hn => ?_
  have answer := read v n h ((lookup_ltFixed hs h).trans entry) (length.trans_le hn)
  rwa [length] at answer

theorem spells_lit (b : Byte) : Spells .ll (symbolBits tableCodes.ll b.toNat) (.lit b) := by
  have hb := b.isLt
  have entry : symEntry .lens b.toNat (fixedLLCode b.toNat).1 = Entry.of 0x10 b.toNat (fixedLLCode b.toNat).1 := by
    rw [symEntry, if_pos hb]
  have literal : (BitVec.ofNat 16 b.toNat).setWidth 8 = b := by
    apply BitVec.eq_of_toNat_eq
    rw [BitVec.toNat_setWidth, BitVec.toNat_ofNat, Nat.mod_eq_of_lt (by omega), Nat.mod_eq_of_lt (by omega)]
  refine spells_ll (by omega) entry (Entry.of_length_toNat (fixedLLCode_length_le _)) fun v n h look hn => ?_
  rw [decodeLL_of_literal look hn rfl, Entry.of_info, literal]

theorem spells_eob : Spells .ll (symbolBits tableCodes.ll 256) .eob :=
  spells_ll (by omega) rfl rfl fun _ _ _ look hn => decodeLL_of_endOfBlock look hn rfl

/-- The bit of a code that comes last in the stream is its least significant one. -/
theorem testBit_of_begins {k c v : Nat} (pos : 0 < k) (h : v % 2 ^ k = rev k c) : v.testBit (k - 1) = c.testBit 0 := by
  have bit := congrArg (fun n => n.testBit (k - 1)) h
  simpa [Nat.testBit_mod_two_pow, testBit_rev, pos, Nat.sub_lt pos] using bit

theorem spells_ll286 : Spells .ll (symbolBits tableCodes.ll 286) .ll286Invalid :=
  spells_ll (by omega) rfl rfl fun v n h look hn => by
    have last : v.testBit 7 = false := testBit_of_begins (k := 8) (c := 0xC6) (by omega) h
    rw [decodeLL_of_invalid look hn rfl]
    exact congrArg (fun b : Bool => Decoded.elem (if b then .ll287Invalid else .ll286Invalid) 8) last

theorem spells_ll287 : Spells .ll (symbolBits tableCodes.ll 287) .ll287Invalid :=
  spells_ll (by omega) rfl rfl fun v n h look hn => by
    have last : v.testBit 7 = true := testBit_of_begins (k := 8) (c := 0xC7) (by omega) h
    rw [decodeLL_of_invalid look hn rfl]
    exact congrArg (fun b : Bool => Decoded.elem (if b then .ll287Invalid else .ll286Invalid) 8) last

/-- A length symbol's entry holds its base and its extra bits (rule R248). -/
theorem symEntry_length {s k : Nat} (lo : 257 ≤ s) (hi : s < 286) :
    (symEntry .lens s k).info.toNat = lbase s ∧ (symEntry .lens s k).tag.toNat = lextra s := by
  have base : lbase s ≤ 258 := getD_of_forall (P := fun p : Nat × Nat => p.1 ≤ 258) (by decide) (by decide) _
  have extra := lextra_le s
  rw [symEntry, if_neg (by omega), if_neg (by omega), if_pos hi, Entry.of_info, Entry.of_tag, BitVec.toNat_ofNat,
    BitVec.toNat_ofNat, Nat.mod_eq_of_lt (by omega), Nat.mod_eq_of_lt (by omega)]
  exact ⟨rfl, rfl⟩

theorem symEntry_length_toNat {m : Mode} {s k : Nat} (hk : k ≤ 15) : (symEntry m s k).length.toNat = k := by
  unfold symEntry
  split
  · split_ifs <;> exact Entry.of_length_toNat hk
  · split_ifs <;> exact Entry.of_length_toNat hk
  · exact Entry.of_length_toNat hk

/-- A length symbol and its extra bits, none included. -/
theorem spells_length {s x : Nat} {i : Instr} (lo : 257 ≤ s) (hi : s < 286) (hx : x < 2 ^ lextra s)
    (hi' : lengthInstr s x = some i) : Spells .ll (symbolBits tableCodes.ll s ++ fieldBits (lextra s) x) i := by
  have length : (symEntry .lens s (fixedLLCode s).1).length.toNat = (fixedLLCode s).1 :=
    symEntry_length_toNat (fixedLLCode_length_le s)
  obtain ⟨info, tag⟩ := symEntry_length (k := (fixedLLCode s).1) lo hi
  have sym : lengthSymbol (symEntry .lens s (fixedLLCode s).1).info.toNat (symEntry .lens s (fixedLLCode s).1).tag.toNat = some s := by
    rw [info, tag, lengthSymbol_lbase lo hi]
  by_cases none : lextra s = 0
  · have zero : x = 0 := by rw [none] at hx; omega
    have tagz : (symEntry .lens s (fixedLLCode s).1).tag = 0 := BitVec.eq_of_toNat_eq (tag.trans none)
    rw [none, show fieldBits 0 x = [] from rfl, List.append_nil]
    refine spells_ll (by omega) rfl length fun v n h look hn => ?_
    rw [decodeLL_of_length look hn sym, if_pos tagz, ← zero, hi', found]
  · have tagn : (symEntry .lens s (fixedLLCode s).1).tag ≠ 0 := fun h => none (by rw [← tag, h]; rfl)
    refine spells_operand (q := .lenExtra (lbase s) (lextra s)) (fun v n h hn => ?_) fun v n h hn => ?_
    · have look := lookup_ltFixed (by omega) h
      rw [decodeAt, decodeLL_of_length look (length.trans_le hn) sym, if_neg tagn, info, tag, length]
      rfl
    · rw [decodeAt, decodeLenExtra_of_symbol (lengthSymbol_lbase lo hi) hn, h, Nat.mod_eq_of_lt hx, hi', found]

/-! ### Distance symbols (rule R132) -/

/-- A distance symbol with no extra bits, given what its entry spells. -/
theorem spells_dist {s : Nat} {i : Instr} (hs : s < 32)
    (read : ∀ v n, v % 2 ^ 5 = rev 5 s → lookup tableBook.dt Config.droot v = symEntry .dists s 5 →
      5 ≤ n → decodeDist tableBook v n = .elem i 5) :
    Spells .dist (symbolBits tableCodes.d s) i :=
  spells_symbol fun v n h hn => read v n h (lookup_dtFixed hs h) hn

theorem spells_dist30 : Spells .dist (symbolBits tableCodes.d 30) .dist30Invalid :=
  spells_dist (by omega) fun v n h look hn => by
    have last : v.testBit 4 = false := testBit_of_begins (k := 5) (c := 30) (by omega) h
    rw [decodeDist_of_invalid look hn rfl]
    exact congrArg (fun b : Bool => Decoded.elem (if b then .dist31Invalid else .dist30Invalid) 5) last

theorem spells_dist31 : Spells .dist (symbolBits tableCodes.d 31) .dist31Invalid :=
  spells_dist (by omega) fun v n h look hn => by
    have last : v.testBit 4 = true := testBit_of_begins (k := 5) (c := 31) (by omega) h
    rw [decodeDist_of_invalid look hn rfl]
    exact congrArg (fun b : Bool => Decoded.elem (if b then .dist31Invalid else .dist30Invalid) 5) last

/-- A distance symbol's entry holds its base and its extra bits (rule R249). -/
theorem symEntry_distance {s k : Nat} (hi : s < 30) :
    (symEntry .dists s k).info.toNat = dbase s ∧ (symEntry .dists s k).tag.toNat = dextra s := by
  have base : dbase s ≤ 24577 := getD_of_forall (P := fun p : Nat × Nat => p.1 ≤ 24577) (by decide) (by decide) _
  have extra := dextra_le s
  rw [symEntry, if_pos hi, Entry.of_info, Entry.of_tag, BitVec.toNat_ofNat, BitVec.toNat_ofNat,
    Nat.mod_eq_of_lt (by omega), Nat.mod_eq_of_lt (by omega)]
  exact ⟨rfl, rfl⟩

/-- A distance symbol and its extra bits, none included. -/
theorem spells_distance {s x : Nat} {i : Instr} (hs : s < 30) (hx : x < 2 ^ dextra s) (hi : distanceInstr s x = some i) :
    Spells .dist (symbolBits tableCodes.d s ++ fieldBits (dextra s) x) i := by
  have length : (symEntry .dists s 5).length.toNat = 5 := symEntry_length_toNat (by omega)
  obtain ⟨info, tag⟩ := symEntry_distance (k := 5) hs
  have sym : distanceSymbol (symEntry .dists s 5).info.toNat (symEntry .dists s 5).tag.toNat = some s := by
    rw [info, tag, distanceSymbol_dbase hs]
  by_cases none : dextra s = 0
  · have zero : x = 0 := by rw [none] at hx; omega
    have tagz : (symEntry .dists s 5).tag = 0 := BitVec.eq_of_toNat_eq (tag.trans none)
    rw [none, show fieldBits 0 x = [] from rfl, List.append_nil]
    refine spells_dist (by omega) fun v n h look hn => ?_
    rw [decodeDist_of_distance look (length.trans_le hn) sym, if_pos tagz, ← zero, hi, found, length]
  · have tagn : (symEntry .dists s 5).tag ≠ 0 := fun h => none (by rw [← tag, h]; rfl)
    refine spells_operand (q := .distExtra (dbase s) (dextra s)) (fun v n h hn => ?_) fun v n h hn => ?_
    · have look := lookup_dtFixed (s := s) (by omega) h
      rw [decodeAt, decodeDist_of_distance look (length.trans_le hn) sym, if_neg tagn, info, tag, length]
      rfl
    · rw [decodeAt, decodeDistExtra_of_symbol (distanceSymbol_dbase hs) hn, h, Nat.mod_eq_of_lt hx, hi, found]

/-! ### Fields of fixed width, and host writes (rules R121 to R125, R139) -/

/-- A field at the beginning of a string reads as what was written. -/
theorem ofNat_bitsVal_fieldBits {w : Nat} (x : BitVec w) (rest : List Bool) :
    BitVec.ofNat w (bitsVal (fieldBits w x.toNat ++ rest)) = x := by
  have h := bitsVal_append_mod (fieldBits w x.toNat) rest
  rw [length_fieldBits, bitsVal_fieldBits] at h
  exact ofNat_of_mod_eq h

/-- Behind a field stands what follows it. -/
theorem bitsVal_fieldBits_shiftRight (w x : Nat) (rest : List Bool) :
    bitsVal (fieldBits w x ++ rest) >>> w = bitsVal rest := by
  have h := bitsVal_append_div (fieldBits w x) rest
  rwa [length_fieldBits, ← Nat.shiftRight_eq_div_pow] at h

theorem spells_header {f : Bool} {k : Nat} {i : Instr} (hk : k < 4)
    (read : ∀ v n, v.testBit 0 = f → v / 2 % 4 = k → 3 ≤ n → decodeHdr v n = .elem i 3) :
    Spells .hdr (f :: fieldBits 2 k) i := by
  intro rest
  have value : bitsVal (f :: fieldBits 2 k ++ rest) = f.toNat + 2 * bitsVal (fieldBits 2 k ++ rest) := rfl
  have type : bitsVal (fieldBits 2 k ++ rest) % 4 = k := by
    have h := bitsVal_append_mod (fieldBits 2 k) rest
    rwa [length_fieldBits, bitsVal_fieldBits, Nat.mod_eq_of_lt (a := k) (by norm_num; omega)] at h
  have small := Bool.toNat_le f
  rw [List.length_cons, length_fieldBits, value]
  refine decode_of_elem (read _ _ ?_ (by omega) (by omega))
  cases f <;> simp [Nat.testBit_zero]

theorem spells_blockStored (f : Bool) : Spells .hdr (f :: fieldBits 2 0) (.blockStored f) :=
  spells_header (by omega) fun v n first type hn => by simp only [decodeHdr, if_neg (Nat.not_lt.mpr hn), first, type]

theorem spells_blockFixed (f : Bool) : Spells .hdr (f :: fieldBits 2 1) (.blockFixed f) :=
  spells_header (by omega) fun v n first type hn => by simp only [decodeHdr, if_neg (Nat.not_lt.mpr hn), first, type]

theorem spells_blockDynamic (f : Bool) : Spells .hdr (f :: fieldBits 2 2) (.blockDynamic f) :=
  spells_header (by omega) fun v n first type hn => by simp only [decodeHdr, if_neg (Nat.not_lt.mpr hn), first, type]

theorem spells_blockReserved (f : Bool) : Spells .hdr (f :: fieldBits 2 3) (.blockReserved f) :=
  spells_header (by omega) fun v n first type hn => by simp only [decodeHdr, if_neg (Nat.not_lt.mpr hn), first, type]

theorem spells_storedhdr (len nlen : BitVec 16) :
    Spells .storedHdr (fieldBits 16 len.toNat ++ fieldBits 16 nlen.toNat) (.storedhdr len nlen) := by
  intro rest
  rw [List.length_append, length_fieldBits, length_fieldBits, List.append_assoc]
  refine decode_of_elem ?_
  rw [decodeAt, decodeStoredHdr, if_neg (by omega), bitsVal_fieldBits_shiftRight, ofNat_bitsVal_fieldBits,
    ofNat_bitsVal_fieldBits]

theorem spells_storedData : Spells .storedData [] .storedData := fun _ => rfl

theorem spells_dynhdr (l d : BitVec 5) (c : BitVec 4) :
    Spells .dynHdr (fieldBits 5 l.toNat ++ fieldBits 5 d.toNat ++ fieldBits 4 c.toNat) (.dynhdr l d c) := by
  intro rest
  rw [List.length_append, List.length_append, length_fieldBits, length_fieldBits, length_fieldBits, List.append_assoc,
    List.append_assoc]
  refine decode_of_elem ?_
  rw [decodeAt, decodeDynHdr, if_neg (by omega), show (10 : Nat) = 5 + 5 from rfl, Nat.shiftRight_add,
    bitsVal_fieldBits_shiftRight, bitsVal_fieldBits_shiftRight, ofNat_bitsVal_fieldBits, ofNat_bitsVal_fieldBits,
    ofNat_bitsVal_fieldBits]

theorem spells_cll (len : BitVec 3) : Spells .cll (fieldBits 3 len.toNat) (.cll len) := by
  intro rest
  rw [length_fieldBits]
  refine decode_of_elem ?_
  rw [decodeAt, decodeCll, if_neg (by omega), ofNat_bitsVal_fieldBits]

/-- The wire form of an instruction spells it: as the bits at a position, or as a host write. -/
def WireSpells (i : Instr) : Wire → Prop
  | .bits p bs => Spells p bs i
  | .access off val => decodeHostWrite off val = some i

/-- A length symbol with extra bits spells the instruction that carries them. -/
theorem spells_length_extra {s n : Nat} (c : BitVec n → Instr) (x : BitVec n) (lo : 257 ≤ s) (hi : s < 286)
    (extra : lextra s = n) (h : ∀ y, lengthInstr s y = some (c (BitVec.ofNat n y))) :
    Spells .ll (symbolBits tableCodes.ll s ++ fieldBits n x.toNat) (c x) := by
  subst extra
  exact spells_length lo hi x.isLt (by rw [h, BitVec.ofNat_toNat, BitVec.setWidth_eq])

/-- A length symbol without extra bits spells its instruction. -/
theorem spells_length_plain {s : Nat} {i : Instr} (lo : 257 ≤ s) (hi : s < 286) (extra : lextra s = 0)
    (h : lengthInstr s 0 = some i) : Spells .ll (symbolBits tableCodes.ll s) i := by
  have spells := spells_length lo hi (by positivity) h
  rwa [extra, show fieldBits 0 0 = [] from rfl, List.append_nil] at spells

/-- A distance symbol with extra bits spells the instruction that carries them. -/
theorem spells_distance_extra {s n : Nat} (c : BitVec n → Instr) (x : BitVec n) (hs : s < 30) (extra : dextra s = n)
    (h : ∀ y, distanceInstr s y = some (c (BitVec.ofNat n y))) :
    Spells .dist (symbolBits tableCodes.d s ++ fieldBits n x.toNat) (c x) := by
  subst extra
  exact spells_distance hs x.isLt (by rw [h, BitVec.ofNat_toNat, BitVec.setWidth_eq])

/-- A distance symbol without extra bits spells its instruction. -/
theorem spells_distance_plain {s : Nat} {i : Instr} (hs : s < 30) (extra : dextra s = 0) (h : distanceInstr s 0 = some i) :
    Spells .dist (symbolBits tableCodes.d s) i := by
  have spells := spells_distance hs (by positivity) h
  rwa [extra, show fieldBits 0 0 = [] from rfl, List.append_nil] at spells

theorem decodeHostWrite_reserved {opc : BitVec 8} (h : definedOpcode opc = false) :
    decodeHostWrite 0x00#32 (opc.setWidth 32) = some (.cmdReserved opc) := by
  have low : (opc.setWidth 32).extractLsb' 0 8 = opc := by
    apply BitVec.eq_of_getLsbD_eq
    intro j hj
    simp [hj]
    omega
  simp only [definedOpcode, Bool.or_eq_false_iff, beq_eq_false_iff_ne] at h
  obtain ⟨⟨h1, h2⟩, h3⟩ := h
  simp only [decodeHostWrite, if_true, low, if_neg h1, if_neg h2, if_neg h3]

/-- Every well-formed instruction is spelled by its wire form. -/
theorem wireSpells_encode (i : Instr) (wf : i.wellFormed = true) : WireSpells i (encode tableCodes i) := by
  cases i
  case blockStored f => exact spells_blockStored f
  case blockFixed f => exact spells_blockFixed f
  case blockDynamic f => exact spells_blockDynamic f
  case blockReserved f => exact spells_blockReserved f
  case storedhdr len nlen => exact spells_storedhdr len nlen
  case storedData => exact spells_storedData
  case dynhdr l d c => exact spells_dynhdr l d c
  case cll len => exact spells_cll len
  case cl0 | cl1 | cl2 | cl3 | cl4 | cl5 | cl6 | cl7 | cl8 | cl9 | cl10 | cl11 | cl12 | cl13 | cl14 | cl15 =>
    exact spells_cl (by decide) rfl
  case rep16 x => exact spells_rep16 x
  case rep17 x => exact spells_rep17 x
  case rep18 x => exact spells_rep18 x
  case lit b => exact spells_lit b
  case eob => exact spells_eob
  case len257 | len258 | len259 | len260 | len261 | len262 | len263 | len264 | len285 =>
    exact spells_length_plain (by decide) (by decide) rfl rfl
  case len265 x | len266 x | len267 x | len268 x | len269 x | len270 x | len271 x | len272 x | len273 x | len274 x | len275 x |
      len276 x | len277 x | len278 x | len279 x | len280 x | len281 x | len282 x | len283 x | len284 x =>
    exact spells_length_extra _ x (by decide) (by decide) rfl fun _ => rfl
  case ll286Invalid => exact spells_ll286
  case ll287Invalid => exact spells_ll287
  case dist0 | dist1 | dist2 | dist3 => exact spells_distance_plain (by decide) rfl rfl
  case dist4 x | dist5 x | dist6 x | dist7 x | dist8 x | dist9 x | dist10 x | dist11 x | dist12 x | dist13 x | dist14 x |
      dist15 x | dist16 x | dist17 x | dist18 x | dist19 x | dist20 x | dist21 x | dist22 x | dist23 x | dist24 x | dist25 x |
      dist26 x | dist27 x | dist28 x | dist29 x =>
    exact spells_distance_extra _ x (by decide) rfl fun _ => rfl
  case dist30Invalid => exact spells_dist30
  case dist31Invalid => exact spells_dist31
  case reset | setDictionary => exact rfl
  case inflate f => cases f <;> exact rfl
  case cmdReserved opc => exact decodeHostWrite_reserved (by simpa [Instr.wellFormed] using wf)
  case setSource h v => cases h <;> exact rfl
  case setTarget h v => cases h <;> exact rfl

/-- Settles O1: each class of instructions is spelled by the bits of its fields, or of its symbol's code and extra bits. -/
theorem decodeInvertsEncode : Obligations.DecodeInvertsEncode := by
  intro i wf
  have spells := wireSpells_encode i wf
  generalize encode tableCodes i = wire at spells
  cases wire with
  | bits p bs => exact spells
  | access off val => exact spells

/-- Settles O2: the decoder evaluated on the words. -/
theorem specWordsDecode : Obligations.SpecWordsDecode := by
  unfold Obligations.SpecWordsDecode
  decide

end Sys2Proof

/-! # The bit reservoir (40_bit_reservoir.md) and the fetch of an element (rules R204, R310, R382) -/

namespace Sys2Proof.Machine

/-! ## The bits held (rules R201, R202, R205 to R207) -/

theorem getLsbD_of_lt {w n j : Nat} {x : BitVec w} (clear : x.toNat < 2 ^ n) (le : n ≤ j) : x.getLsbD j = false :=
  Nat.testBit_lt_two_pow (clear.trans_le (Nat.pow_le_pow_right (by omega) le))

theorem takeByte_getLsbD (s : State) (j : Nat) :
    (takeByte s).res.getLsbD j =
      (s.res.getLsbD j || (decide (j < 64) && !decide (j < s.bc.toNat) && (sourceByte s).getLsbD (j - s.bc.toNat))) := by
  rw [takeByte_res, BitVec.getLsbD_or, BitVec.getLsbD_shiftLeft, BitVec.getLsbD_setWidth]
  by_cases h : j < 64
  · have inside : j - s.bc.toNat < 64 := by omega
    simp [h, inside]
  · simp [h]

theorem drop_res_lt {n : Nat} {s : State} (le : n ≤ s.bc.toNat) (clear : s.res.toNat < 2 ^ s.bc.toNat) :
    (drop n s).res.toNat < 2 ^ (drop n s).bc.toNat := by
  rw [drop_bc_toNat le, drop_res_toNat, Nat.div_lt_iff_lt_mul (by positivity), ← pow_add, Nat.sub_add_cancel le]
  exact clear

theorem drop_zero (s : State) : drop 0 s = s := by simp [drop]

theorem drop_add (k n : Nat) (s : State) : drop (k + n) s = drop n (drop k s) := by
  have bc : s.bc - BitVec.ofNat 7 (k + n) = s.bc - BitVec.ofNat 7 k - BitVec.ofNat 7 n := by
    rw [BitVec.ofNat_add, sub_add_eq_sub_sub]
  simp only [drop, BitVec.shiftRight_add, bc]

theorem align_bc_toNat (s : State) : (align s).bc.toNat = s.bc.toNat - s.bc.toNat % 8 := drop_bc_toNat (Nat.mod_le _ _)

theorem align_bc_mod (s : State) : (align s).bc.toNat % 8 = 0 := by rw [align_bc_toNat]; omega

theorem align_of_aligned {s : State} (h : s.bc.toNat % 8 = 0) : align s = s := by rw [align, h, drop_zero]

end Sys2Proof.Machine

namespace Sys2Proof

open Machine

/-- Settles O10: the pulled byte is or-ed in above the bits held, where the reservoir is clear. -/
theorem pullPlacesTheNextByte : Obligations.PullPlacesTheNextByte := by
  intro s room clear
  refine ⟨rfl, fun j hj => ?_, fun j hj => ?_, fun j hj => ?_⟩
  · rw [takeByte_getLsbD]
    simp [hj]
  · have inside : s.bc.toNat + j < 64 := by omega
    rw [takeByte_getLsbD, getLsbD_of_lt clear (by omega)]
    simp [inside, sourceByte]
  · rw [takeByte_getLsbD, getLsbD_of_lt clear (by omega), BitVec.getLsbD_of_ge (sourceByte s) _ (by omega)]
    simp

/-- Settles O11: a drop is a shift to the right, and what was below `2 ^ bc` is then below `2 ^ (bc - n)`. -/
theorem dropDiscardsBits : Obligations.DropDiscardsBits := fun s n le clear =>
  ⟨rfl, drop_bc_toNat le, fun j => by rw [drop_res, BitVec.getLsbD_ushiftRight], drop_res_lt le clear⟩

/-- Settles O12: an alignment is a drop of `bc mod 8` bits, of which none are left. -/
theorem alignReachesAByteBoundary : Obligations.AlignReachesAByteBoundary := fun s =>
  ⟨rfl, align_bc_toNat s, align_bc_mod s, align_of_aligned (align_bc_mod s)⟩

end Sys2Proof

namespace Sys2Proof.Machine

/-! ## What the state expects (rules R310, R340, R380) -/

/-- The registers say that the stream holds an element of this position next. -/
def State.Expects (s : State) : Position → Prop
  | .hdr => s.bstate = .needHeader
  | .storedHdr => s.bstate = .stored ∧ s.sphase = .lenHdr
  | .storedData => s.bstate = .stored ∧ s.sphase = .copy
  | .dynHdr => s.bstate = .dynamic ∧ s.dphase = .counts
  | .cll => s.bstate = .dynamic ∧ s.dphase = .clens ∧ s.idx.toNat < s.hclen.toNat
  | .clsym => s.bstate = .dynamic ∧ s.dphase = .lens ∧ s.idx.toNat < vectorLength s
  | .repExtra sym => s.bstate = .dynamic ∧ s.dphase = .rep ∧ s.dsym.toNat = sym
  | .ll => s.bstate = .decoding ∧ s.sub = .litLen ∧ s.litPending = false
  | .lenExtra b e => s.bstate = .decoding ∧ s.sub = .lenExtra ∧ s.auxLen.toNat = b ∧ s.auxExtra.toNat = e
  | .dist => s.bstate = .decoding ∧ s.sub = .distSym
  | .distExtra b e => s.bstate = .decoding ∧ s.sub = .distExtra ∧ s.auxDist.toNat = b ∧ s.auxExtra.toNat = e

/-- The registers say that this step comes next. -/
def State.Selects (s : State) : Phase → Prop
  | .element p => s.Expects p
  | .fixedSelect => s.bstate = .fixed
  | .ctBuild => s.bstate = .dynamic ∧ s.dphase = .clens
  | .dynBuild => s.bstate = .dynamic ∧ s.dphase = .lens
  | .emit => s.bstate = .decoding ∧ s.sub = .litLen
  | .copy => s.bstate = .decoding ∧ s.sub = .copy
  | .closed => s.bstate.runs = false

/-- The dispatch, block state by block state. -/
theorem selects_phase (s : State) : s.Selects (phase s) := by
  unfold phase dynamicPhase decodingPhase
  split
  · assumption
  · split <;> exact ⟨‹_›, ‹_›⟩
  · assumption
  · split
    · exact ⟨‹_›, ‹_›⟩
    · split
      · exact ⟨‹_›, ‹_›, ‹_›⟩
      · exact ⟨‹_›, ‹_›⟩
    · split
      · exact ⟨‹_›, ‹_›, ‹_›⟩
      · exact ⟨‹_›, ‹_›⟩
    · exact ⟨‹_›, ‹_›, rfl⟩
  · split
    · split
      · exact ⟨‹_›, ‹_›⟩
      · exact ⟨‹_›, ‹_›, Bool.eq_false_of_not_eq_true ‹_›⟩
    · exact ⟨‹_›, ‹_›, rfl, rfl⟩
    · exact ⟨‹_›, ‹_›⟩
    · exact ⟨‹_›, ‹_›, rfl, rfl⟩
    · exact ⟨‹_›, ‹_›⟩
  all_goals
    rename_i b
    rw [State.Selects, b]
    rfl

theorem State.Selects.of_phase {s : State} {p : Phase} (h : phase s = p) : s.Selects p := h ▸ selects_phase s

theorem expects_of_phase {s : State} {p : Position} (h : phase s = .element p) : s.Expects p := State.Selects.of_phase h

theorem phase_of_expects {s : State} {p : Position} (h : s.Expects p) : phase s = .element p := by
  cases p <;> simp only [State.Expects] at h <;> simp [phase, dynamicPhase, decodingPhase, h]

/-! ## Gathering bits (rules R204, R382) -/

/-- What one read of the bits held answers. -/
def readAt (p : Position) (s : State) : Decoded := decodeAt (codebook s) p s.res.toNat s.bc.toNat

theorem gather_of_settled {p : Position} {s : State} {d : Decoded} (k : Nat) (h : readAt p s = d) (settled : d ≠ .short) :
    gather p (k + 1) s = .got d s := by
  rw [gather]
  rw [readAt] at h
  split
  · exact absurd (h.symm.trans ‹_›) settled
  · rw [h]

theorem gather_of_dry {p : Position} {s : State} (k : Nat) (short : readAt p s = .short) (dry : s.srcLen = 0) :
    gather p (k + 1) s = .dry s := by
  rw [readAt] at short
  rw [gather, short]
  simp only [if_pos dry]

theorem gather_of_full {p : Position} {s : State} (k : Nat) (short : readAt p s = .short) (more : s.srcLen ≠ 0)
    (full : 64 < s.bc.toNat + 8) : gather p (k + 1) s = .full := by
  rw [readAt] at short
  rw [gather, short]
  simp only [if_neg more, if_pos full]

theorem gather_of_pull {p : Position} {s : State} (k : Nat) (short : readAt p s = .short) (more : s.srcLen ≠ 0)
    (room : s.bc.toNat + 8 ≤ 64) : gather p (k + 1) s = gather p k (takeByte s) := by
  rw [readAt] at short
  rw [gather, short]
  simp only [if_neg more, if_neg (Nat.not_lt.mpr room)]

/-- What a gathering ends with, where every pull keeps `P`: an answer that is settled, nothing more to pull, or no room. -/
def Gathered.Ends (P : State → Prop) (p : Position) : Gathered → Prop
  | .got d s => P s ∧ readAt p s = d ∧ d ≠ .short
  | .dry s => P s ∧ readAt p s = .short ∧ s.srcLen = 0
  | .full => ∃ s, P s ∧ readAt p s = .short ∧ 64 < s.bc.toNat + 8

/-- All that a gathering can do: it ends here, or it goes on with one more byte. -/
theorem gather_cases (p : Position) (s : State) :
    (∃ g : Gathered, (∀ k, gather p (k + 1) s = g) ∧ ∀ P : State → Prop, P s → g.Ends P p) ∨
      (readAt p s = .short ∧ s.srcLen ≠ 0 ∧ s.bc.toNat + 8 ≤ 64 ∧ ∀ k, gather p (k + 1) s = gather p k (takeByte s)) := by
  by_cases short : readAt p s = .short
  · by_cases dry : s.srcLen = 0
    · exact .inl ⟨.dry s, fun k => gather_of_dry k short dry, fun P h => ⟨h, short, dry⟩⟩
    · rcases Nat.lt_or_ge 64 (s.bc.toNat + 8) with full | room
      · exact .inl ⟨.full, fun k => gather_of_full k short dry full, fun P h => ⟨s, h, short, full⟩⟩
      · exact .inr ⟨short, dry, room, fun k => gather_of_pull k short dry room⟩
  · exact .inl ⟨.got (readAt p s) s, fun k => gather_of_settled k rfl short, fun P h => ⟨h, rfl, short⟩⟩

/-- More pulls than the reservoir has room for change nothing. -/
theorem gather_fuel (p : Position) (k : Nat) {s : State} (enough : 64 < s.bc.toNat + 8 * (k + 1)) :
    gather p (k + 2) s = gather p (k + 1) s := by
  induction k generalizing s with
  | zero =>
    obtain ⟨g, same, -⟩ | ⟨-, -, room, -⟩ := gather_cases p s
    · rw [same, same]
    · omega
  | succ k ih =>
    obtain ⟨g, same, -⟩ | ⟨-, -, room, pull⟩ := gather_cases p s
    · rw [same, same]
    · have more : 64 < (takeByte s).bc.toNat + 8 * (k + 1) := by rw [takeByte_bc_toNat room]; omega
      rw [pull, pull, ih more]

/-- With as many pulls as the reservoir has room for, a gathering ends for one of its three reasons. -/
theorem gather_ends {P : State → Prop} {p : Position}
    (pulled : ∀ s, P s → readAt p s = .short → s.srcLen ≠ 0 → s.bc.toNat + 8 ≤ 64 → P (takeByte s)) (k : Nat) {s : State}
    (enough : 64 < s.bc.toNat + 8 * (k + 1)) (h : P s) : (gather p (k + 1) s).Ends P p := by
  induction k generalizing s with
  | zero =>
    obtain ⟨g, same, ends⟩ | ⟨-, -, room, -⟩ := gather_cases p s
    · rw [same]
      exact ends P h
    · omega
  | succ k ih =>
    obtain ⟨g, same, ends⟩ | ⟨short, more, room, pull⟩ := gather_cases p s
    · rw [same]
      exact ends P h
    · have enough' : 64 < (takeByte s).bc.toNat + 8 * (k + 1) := by rw [takeByte_bc_toNat room]; omega
      rw [pull]
      exact ih enough' (pulled s h short more room)

/-! ## Fetching (rules R200, R382) -/

theorem beforeFetch_of_leads {p q : Position} (h : p.Leads q) (s : State) : beforeFetch p s = s := by cases h <;> rfl

theorem beforeFetch_of_isOperand {q : Position} (h : q.isOperand = true) (s : State) : beforeFetch q s = s := by
  cases q with
  | storedHdr => cases h
  | _ => rfl

theorem gatherLimit_eq : gatherLimit = 8 + 1 := rfl

theorem fetch_of_elem {p : Position} {s : State} {i : Instr} {w : Nat} (h : readAt p (beforeFetch p s) = .elem i w) :
    fetch p s = .instr i (drop w (beforeFetch p s)) := by
  rw [fetch, gatherLimit_eq, gather_of_settled _ h (by simp)]

theorem fetch_of_operand {p q : Position} {s : State} {k : Nat} (h : readAt p (beforeFetch p s) = .operand q k) :
    fetch p s = fetchOperand q (enterOperand q (drop k (beforeFetch p s))) := by
  rw [fetch, gatherLimit_eq, gather_of_settled _ h (by simp)]

theorem fetch_of_dry {p : Position} {s : State} (short : readAt p (beforeFetch p s) = .short)
    (dry : (beforeFetch p s).srcLen = 0) : fetch p s = .suspended (beforeFetch p s) := by
  rw [fetch, gatherLimit_eq, gather_of_dry _ short dry]

/-- Extra bits are fetched alike with their symbol and after a suspension (rules R344, R386, R418). -/
theorem fetchOperand_eq_fetch {q : Position} (h : q.isOperand = true) (s : State) : fetchOperand q s = fetch q s := by
  have ends := gather_ends (P := fun _ => True) (p := q) (fun _ _ _ _ _ => trivial) 8 (s := s) (by omega) trivial
  rw [fetch, fetchOperand, beforeFetch_of_isOperand h]
  rw [gatherLimit_eq]
  generalize gather q (8 + 1) s = g at ends
  cases g with
  | got d s' =>
    obtain ⟨-, read, settled⟩ := ends
    cases d with
    | elem i w => rfl
    | operand r k => exact absurd (decodeAt_operand read).1.not_isOperand (by simp [h])
    | short => exact absurd rfl settled
    | reject r => rfl
  | dry s' => rfl
  | full => rfl

/-- What a fetch ends with, where every state it goes through at a position has `P` there: an instruction that is held in full, a suspension, or a stop. -/
def Fetched.Ends (P : Position → State → Prop) : Fetched → Prop
  | .instr i t => ∃ q u w, t = drop w u ∧ P q u ∧ readAt q u = .elem i w
  | .suspended t => ∃ q, P q t ∧ readAt q t = .short ∧ t.srcLen = 0
  | .stopped _ => ∃ q u, P q u ∧ ((∃ r, readAt q u = .reject r) ∨ (readAt q u = .short ∧ 64 < u.bc.toNat + 8))

section Ends

variable {P : Position → State → Prop}
  (pulled : ∀ p s, P p s → readAt p s = .short → s.srcLen ≠ 0 → s.bc.toNat + 8 ≤ 64 → P p (takeByte s))

include pulled

/-- The fetch of extra bits goes through states with one more byte each. -/
theorem fetchOperand_ends {q : Position} (operand : q.isOperand = true) {s : State} (h : P q s) : (fetchOperand q s).Ends P := by
  have ends := gather_ends (P := P q) (pulled q) 8 (s := s) (by omega) h
  rw [fetchOperand, gatherLimit_eq]
  generalize gather q (8 + 1) s = g at ends
  cases g with
  | got d u =>
    obtain ⟨hu, read, settled⟩ := ends
    cases d with
    | elem i w => exact ⟨q, u, w, rfl, hu, read⟩
    | operand r k => exact absurd (decodeAt_operand read).1.not_isOperand (by simp [operand])
    | short => exact absurd rfl settled
    | reject r => exact ⟨q, u, hu, .inl ⟨r, read⟩⟩
  | dry u => exact ⟨q, ends⟩
  | full =>
    obtain ⟨u, hu, full⟩ := ends
    exact ⟨q, u, hu, .inr full⟩

/-- A fetch goes through states with one more byte each, and from a symbol to its extra bits. -/
theorem fetch_ends (entered : ∀ p s q k, P p s → readAt p s = .operand q k → P q (enterOperand q (drop k s))) {p : Position}
    {s : State} (h : P p (beforeFetch p s)) : (fetch p s).Ends P := by
  have ends := gather_ends (P := P p) (pulled p) 8 (s := beforeFetch p s) (by omega) h
  rw [fetch, gatherLimit_eq]
  generalize gather p (8 + 1) (beforeFetch p s) = g at ends
  cases g with
  | got d u =>
    obtain ⟨hu, read, settled⟩ := ends
    cases d with
    | elem i w => exact ⟨p, u, w, rfl, hu, read⟩
    | operand q k => exact fetchOperand_ends pulled (decodeAt_operand read).1.isOperand (entered p u q k hu read)
    | short => exact absurd rfl settled
    | reject r => exact ⟨p, u, hu, .inl ⟨r, read⟩⟩
  | dry u => exact ⟨p, ends⟩
  | full =>
    obtain ⟨u, hu, full⟩ := ends
    exact ⟨p, u, hu, .inr full⟩

end Ends

/-- What the step makes of a fetch: the instruction's meaning, a suspension, or a stop. -/
def Fetched.run : Fetched → Result
  | .instr i s => exec i s
  | .suspended s => .next (suspendSource s)
  | .stopped f => .fault f

theorem streamStep_of_element {s : State} {p : Position} (h : phase s = .element p) : streamStep s = (fetch p s).run := by
  simp only [streamStep, h]
  cases fetch p s <;> rfl

theorem step_of_element {s : State} {p : Position} (running : s.inflating ≠ none) (h : phase s = .element p) :
    step s = (fetch p s).run := by
  rw [step_of_inflating running, streamStep_of_element h]

/-- Two states at which the same is fetched take the same step. -/
theorem step_eq_of_fetch_eq {s t : State} {p q : Position} (rs : s.inflating ≠ none) (rt : t.inflating ≠ none)
    (hs : phase s = .element p) (ht : phase t = .element q) (h : fetch p s = fetch q t) : step s = step t := by
  rw [step_of_element rs hs, step_of_element rt ht, h]

/-! ## A symbol held in the registers (rules R344, R386, R418) -/

theorem codebook_enterOperand (q : Position) (s : State) : codebook (enterOperand q s) = codebook s := by cases q <;> rfl

theorem enterOperand_res (q : Position) (s : State) : (enterOperand q s).res = s.res := by cases q <;> rfl

theorem enterOperand_bc (q : Position) (s : State) : (enterOperand q s).bc = s.bc := by cases q <;> rfl

theorem enterOperand_inflating (q : Position) (s : State) : (enterOperand q s).inflating = s.inflating := by cases q <;> rfl

theorem drop_enterOperand (n : Nat) (q : Position) (s : State) : drop n (enterOperand q s) = enterOperand q (drop n s) := by
  cases q <;> rfl

/-- The registers hold what their symbol's extra bits ask for. -/
theorem expects_enterOperand {s : State} {p q : Position} (h : s.Expects p) (leads : p.Leads q) :
    (enterOperand q s).Expects q := by
  cases leads with
  | rep lo hi =>
    refine ⟨h.1, rfl, ?_⟩
    exact Nat.mod_eq_of_lt (by omega)
  | @length b e some =>
    obtain ⟨sym, hs⟩ := Option.isSome_iff_exists.mp some
    obtain ⟨-, -, rfl, rfl⟩ := lengthSymbol_eq_some hs
    have base : lbase sym ≤ 258 := getD_of_forall (P := fun p : Nat × Nat => p.1 ≤ 258) (by decide) (by decide) _
    have extra := lextra_le sym
    exact ⟨h.1, rfl, Nat.mod_eq_of_lt (by omega), Nat.mod_eq_of_lt (by omega)⟩
  | @distance b e some =>
    obtain ⟨sym, hs⟩ := Option.isSome_iff_exists.mp some
    obtain ⟨-, rfl, rfl⟩ := distanceSymbol_eq_some hs
    have base : dbase sym ≤ 24577 := getD_of_forall (P := fun p : Nat × Nat => p.1 ≤ 24577) (by decide) (by decide) _
    have extra := dextra_le sym
    exact ⟨h.1, rfl, Nat.mod_eq_of_lt (by omega), Nat.mod_eq_of_lt (by omega)⟩

/-- An element with extra bits sets the registers of its symbol itself. -/
theorem exec_enterOperand {q : Position} {i : Instr} (operand : q.isOperand = true) (h : q.Holds i) (s : State) :
    exec i (enterOperand q s) = exec i s := by
  cases h with
  | rep16 x | rep17 x | rep18 x => rfl
  | lenExtra hs h =>
    obtain ⟨lo, hi, rfl, rfl⟩ := lengthSymbol_eq_some hs
    obtain ⟨j, hj, -, meaning⟩ := lengthInstr_of_lt lo hi _
    obtain rfl := Option.some.inj (h.symm.trans hj)
    rw [meaning, meaning]
    rfl
  | distExtra hs h =>
    obtain ⟨hi, rfl, rfl⟩ := distanceSymbol_eq_some hs
    obtain ⟨j, hj, -, meaning⟩ := distanceInstr_of_lt hi _
    obtain rfl := Option.some.inj (h.symm.trans hj)
    rw [meaning, meaning]
    rfl
  | _ => cases operand

/-- One read of a symbol's extra bits, behind its code. -/
theorem readAt_enterOperand {q : Position} {s : State} {k : Nat} (le : k ≤ s.bc.toNat) :
    readAt q (enterOperand q (drop k s)) = decodeAt (codebook s) q (s.res.toNat >>> k) (s.bc.toNat - k) := by
  rw [readAt, codebook_enterOperand, enterOperand_res, enterOperand_bc, drop_bc_toNat le, drop_res_toNat,
    Nat.shiftRight_eq_div_pow]
  rfl

/-- The whole element that is held: its instruction is fetched with the bits of code and extra bits dropped. -/
theorem exec_of_decode {p : Position} {s : State} {i : Instr} {w : Nat}
    (h : decode (codebook s) p (beforeFetch p s).res.toNat (beforeFetch p s).bc.toNat = .elem i w) :
    ∃ t, fetch p s = .instr i t ∧ exec i t = exec i (drop w (beforeFetch p s)) := by
  have book : codebook (beforeFetch p s) = codebook s := by cases p <;> rfl
  rw [← book] at h
  rcases decode_elem_cases h with one | ⟨q, k, w', symbol, extra, rfl⟩
  · exact ⟨_, fetch_of_elem one, rfl⟩
  · obtain ⟨leads, le⟩ := decodeAt_operand symbol
    have operand := leads.isOperand
    have before := beforeFetch_of_isOperand operand
    rw [← readAt_enterOperand le, ← before (enterOperand q _)] at extra
    refine ⟨enterOperand q (drop (k + w') (beforeFetch p s)), ?_, ?_⟩
    · rw [fetch_of_operand symbol, fetchOperand_eq_fetch operand, fetch_of_elem extra, before, drop_enterOperand, drop_add]
    · exact exec_enterOperand operand (decodeAt_elem extra).1 _

/-! ## One more byte (rules R202, R204, R316) -/

/-- The state that `beforeFetch` leaves is left as it is by a second one, also with one more byte. -/
theorem beforeFetch_takeByte {p : Position} {s : State} (room : (beforeFetch p s).bc.toNat + 8 ≤ 64) :
    beforeFetch p (takeByte (beforeFetch p s)) = takeByte (beforeFetch p s) := by
  cases p with
  | storedHdr =>
    refine align_of_aligned ?_
    rw [takeByte_bc_toNat room]
    have := align_bc_mod s
    simp only [beforeFetch]
    omega
  | _ => rfl

theorem phase_beforeFetch (p : Position) (s : State) : phase (beforeFetch p s) = phase s := by cases p <;> rfl

theorem phase_takeByte (s : State) : phase (takeByte s) = phase s := rfl

theorem beforeFetch_srcLen (p : Position) (s : State) : (beforeFetch p s).srcLen = s.srcLen := by cases p <;> rfl

theorem beforeFetch_inflating (p : Position) (s : State) : (beforeFetch p s).inflating = s.inflating := by cases p <;> rfl

theorem codebook_beforeFetch (p : Position) (s : State) : codebook (beforeFetch p s) = codebook s := by cases p <;> rfl

/-- Where one read is short, the fetch is that of the state with one more byte. -/
theorem fetch_of_pull {p : Position} {s : State} (short : readAt p (beforeFetch p s) = .short)
    (more : (beforeFetch p s).srcLen ≠ 0) (room : (beforeFetch p s).bc.toNat + 8 ≤ 64) :
    fetch p s = fetch p (takeByte (beforeFetch p s)) := by
  have fuel : gather p 9 (takeByte (beforeFetch p s)) = gather p 8 (takeByte (beforeFetch p s)) := by
    refine gather_fuel p 7 ?_
    rw [takeByte_bc_toNat room]
    omega
  rw [fetch, fetch, beforeFetch_takeByte room, gatherLimit_eq, gather_of_pull _ short more room, fuel]

end Sys2Proof.Machine

namespace Sys2Proof

open Machine

/-- Settles O14: the fetch answers the decoded instruction; the registers that a symbol sets on the way are set by the instruction itself. -/
theorem stepRunsTheHeldElement : Obligations.StepRunsTheHeldElement := by
  intro s p i w running h held
  obtain ⟨t, fetched, same⟩ := exec_of_decode held
  rw [step_of_element running h, fetched]
  exact same

/-- Settles O15: the fetch pulls that byte first, and has as many pulls left as the reservoir has room for. -/
theorem stepPullsWhatItNeeds : Obligations.StepPullsWhatItNeeds := by
  intro s p running h short more room
  rw [← codebook_beforeFetch p s] at short
  refine step_eq_of_fetch_eq running ?_ h ?_ (fetch_of_pull short (by rwa [beforeFetch_srcLen]) room)
  · rwa [takeByte_inflating, beforeFetch_inflating]
  · rwa [phase_takeByte, phase_beforeFetch]

/-- Settles O16: the fetch goes through the registers to the extra bits, which it reads as the next step would. -/
theorem stepHoldsASymbolForItsExtraBits : Obligations.StepHoldsASymbolForItsExtraBits := by
  intro s p q k running h symbol
  obtain ⟨leads, -⟩ := decodeAt_operand symbol
  have before := beforeFetch_of_leads leads s
  have expects : (drop k s).Expects p := expects_of_phase (s := drop k s) h
  refine step_eq_of_fetch_eq running ?_ h (phase_of_expects (expects_enterOperand expects leads)) ?_
  · rwa [enterOperand_inflating, drop_inflating]
  · rw [fetch_of_operand (by rw [before]; exact symbol), fetchOperand_eq_fetch leads.isOperand, before]

/-- Settles O17: the fetch suspends with the bits it holds, and `final_input` says how the INFLATE ends. -/
theorem stepSuspendsForInput : Obligations.StepSuspendsForInput := by
  intro s p h short dry
  rw [← codebook_beforeFetch p s] at short
  have suspended := fetch_of_dry short ((beforeFetch_srcLen p s).trans dry)
  have step_eq (running : s.inflating ≠ none) : step s = .next (suspendSource (beforeFetch p s)) := by
    rw [step_of_element running h, suspended, Fetched.run]
  have same := beforeFetch_inflating p s
  constructor
  · intro more
    rw [step_eq (by simp [more]), suspendSource, if_neg (by simp [same, more])]
    rfl
  · intro last
    rw [step_eq (by simp [last]), suspendSource, if_pos (by rw [same, last])]

end Sys2Proof

/-! # Block headers, dynamic headers and the decoding loop (43 to 45): the meaning of each element -/

namespace Sys2Proof.Machine

/-! ## The steps that read no element (rules R310, R340, R380) -/

theorem phase_of_ctBuild {s : State} (dynamic : s.bstate = .dynamic) (clens : s.dphase = .clens)
    (all : s.hclen.toNat ≤ s.idx.toNat) : phase s = .ctBuild := by
  simp only [phase, dynamic, dynamicPhase, clens, if_neg (Nat.not_lt.mpr all)]

theorem phase_of_dynBuild {s : State} (dynamic : s.bstate = .dynamic) (lens : s.dphase = .lens)
    (all : vectorLength s ≤ s.idx.toNat) : phase s = .dynBuild := by
  simp only [phase, dynamic, dynamicPhase, lens, if_neg (Nat.not_lt.mpr all)]

theorem phase_of_emit {s : State} (decoding : s.bstate = .decoding) (litLen : s.sub = .litLen)
    (pending : s.litPending = true) : phase s = .emit := by
  simp only [phase, decoding, decodingPhase, litLen, if_pos pending]

theorem phase_of_copy {s : State} (decoding : s.bstate = .decoding) (copy : s.sub = .copy) : phase s = .copy := by
  simp only [phase, decoding, decodingPhase, copy]

theorem step_of_ctBuild {s : State} (running : s.inflating ≠ none) (h : phase s = .ctBuild) : step s = ctBuild s := by
  simp only [step_of_inflating running, streamStep, h]

theorem step_of_dynBuild {s : State} (running : s.inflating ≠ none) (h : phase s = .dynBuild) : step s = dynBuild s := by
  simp only [step_of_inflating running, streamStep, h]

theorem step_of_emit {s : State} (running : s.inflating ≠ none) (h : phase s = .emit) : step s = emitLiteral s := by
  simp only [step_of_inflating running, streamStep, h]

theorem step_of_copy {s : State} (running : s.inflating ≠ none) (h : phase s = .copy) : step s = copyStep s := by
  simp only [step_of_inflating running, streamStep, h]

/-! ## The two builds (rules R343, R350, R351) -/

theorem ctBuild_of_some {s : State} {T : Ram Entry} (h : build .codes (clensVector s) s.ct = some T) :
    ctBuild s = .next { s with ct := T, idx := 0, dphase := .lens } := by
  simp only [ctBuild, h]

theorem ctBuild_of_none {s : State} (h : build .codes (clensVector s) s.ct = none) :
    ctBuild s = .next (raise .badTree { s with ct := unspecifiedTable Config.ccap s }) := by
  simp only [ctBuild, h]

theorem dynBuildDist_of_some {s : State} {T : Ram Entry}
    (h : build .dists (lensSlice s s.hlit.toNat s.hdist.toNat) s.dt = some T) :
    dynBuildDist s = .next (enterBody .dynamic { s with dt := T }) := by
  simp only [dynBuildDist, h]

theorem dynBuildDist_of_none {s : State} (h : build .dists (lensSlice s s.hlit.toNat s.hdist.toNat) s.dt = none) :
    dynBuildDist s = .next (raise .badTree { s with dt := unspecifiedTable Config.dcap s }) := by
  simp only [dynBuildDist, h]

theorem dynBuild_of_no_endOfBlock {s : State} (h : Ram.read 0 s.lens 256 = 0) : dynBuild s = .next (raise .badTree s) := by
  rw [dynBuild, if_pos h]

theorem dynBuild_of_some {s : State} {T : Ram Entry} (eob : Ram.read 0 s.lens 256 ≠ 0)
    (h : build .lens (lensSlice s 0 s.hlit.toNat) s.lt = some T) : dynBuild s = dynBuildDist { s with lt := T } := by
  rw [dynBuild, if_neg eob]
  simp only [h]

theorem dynBuild_of_none {s : State} (eob : Ram.read 0 s.lens 256 ≠ 0)
    (h : build .lens (lensSlice s 0 s.hlit.toNat) s.lt = none) :
    dynBuild s = .next (raise .badTree { s with lt := unspecifiedTable Config.lcap s }) := by
  rw [dynBuild, if_neg eob]
  simp only [h]

/-! ## Block headers (rules R311 to R316) -/

theorem execStoredhdr_of_complement {s : State} {len nlen : BitVec 16} (h : nlen = len ^^^ 0xFFFF#16) :
    execStoredhdr len nlen s = .next { s with srem := len, sphase := .copy } := by
  rw [execStoredhdr, if_neg (not_not.mpr h)]

theorem execStoredhdr_of_other {s : State} {len nlen : BitVec 16} (h : nlen ≠ len ^^^ 0xFFFF#16) :
    execStoredhdr len nlen s = .next (raise .badBlock s) := by
  rw [execStoredhdr, if_pos h]

/-! ## The dynamic header (rules R340 to R349) -/

/-- The count registers with the counts of a dynamic header (rule R340). -/
def withCounts (hlit hdist : BitVec 5) (hclen : BitVec 4) (s : State) : State :=
  { s with
    hlit := BitVec.ofNat 9 (hlit.toNat + 257)
    hdist := BitVec.ofNat 5 (hdist.toNat + 1)
    hclen := BitVec.ofNat 5 (hclen.toNat + 4) }

theorem execDynhdr_of_legal {s : State} {hlit hdist : BitVec 5} {hclen : BitVec 4} (hl : hlit.toNat + 257 ≤ 286)
    (hd : hdist.toNat + 1 ≤ 30) :
    execDynhdr hlit hdist hclen s = .next { withCounts hlit hdist hclen s with clens := [], idx := 0, dphase := .clens } := by
  simp only [execDynhdr]
  rw [if_neg (by omega)]
  rfl

theorem execDynhdr_of_illegal {s : State} {hlit hdist : BitVec 5} {hclen : BitVec 4}
    (h : 286 < hlit.toNat + 257 ∨ 30 < hdist.toNat + 1) :
    execDynhdr hlit hdist hclen s = .next (raise .badTree (withCounts hlit hdist hclen s)) := by
  simp only [execDynhdr]
  rw [if_pos h]
  rfl

theorem withCounts_hlit (hlit hdist : BitVec 5) (hclen : BitVec 4) (s : State) :
    (withCounts hlit hdist hclen s).hlit.toNat = hlit.toNat + 257 := by
  have := hlit.isLt
  exact Nat.mod_eq_of_lt (by omega)

theorem withCounts_hdist {hlit hdist : BitVec 5} (hclen : BitVec 4) (s : State) (legal : hdist.toNat + 1 ≤ 30) :
    (withCounts hlit hdist hclen s).hdist.toNat = hdist.toNat + 1 :=
  Nat.mod_eq_of_lt (by omega)

theorem withCounts_hclen (hlit hdist : BitVec 5) (hclen : BitVec 4) (s : State) :
    (withCounts hlit hdist hclen s).hclen.toNat = hclen.toNat + 4 := by
  have := hclen.isLt
  exact Nat.mod_eq_of_lt (by omega)

/-- Beside `lens` and `idx` a run of lengths changes nothing; what `lens` then holds. -/
theorem read_pushLens (r : Nat) (v : BitVec 4) {s : State} (wf : Ram.wf 320 0 s.lens = true) (fits : s.idx.toNat + r ≤ 320)
    (k : Nat) : Ram.read 0 (pushLens r v s).lens k =
      if s.idx.toNat ≤ k ∧ k < s.idx.toNat + r then v else Ram.read 0 s.lens k := by
  induction r generalizing s with
  | zero => rw [if_neg (by omega)]; rfl
  | succ r ih =>
    have next : (pushLen v s).idx.toNat = s.idx.toNat + 1 := by rw [pushLen_idx]; bv_omega
    have wf' : Ram.wf 320 0 (pushLen v s).lens = true := Ram.wf_write wf _ _
    have here : Ram.read 0 (pushLen v s).lens k = if k = s.idx.toNat ∧ s.idx.toNat < 320 then v else Ram.read 0 s.lens k :=
      Ram.read_write wf _ _ _
    rw [pushLens, ih wf' (by omega), next, here]
    split_ifs <;> first | rfl | omega

theorem pushLens_idx_toNat (r : Nat) (v : BitVec 4) {s : State} (fits : s.idx.toNat + r ≤ 320) :
    (pushLens r v s).idx.toNat = s.idx.toNat + r := by
  have h : (pushLens r v s).idx = s.idx + BitVec.ofNat 9 r := by rw [pushLens_frame]
  rw [h, BitVec.toNat_add, BitVec.toNat_ofNat, Nat.mod_eq_of_lt (a := r) (by omega), Nat.mod_eq_of_lt (by omega)]

theorem repeatLengths_of_fits {r : Nat} {v : BitVec 4} {s : State} (fits : s.idx.toNat + r ≤ vectorLength s) :
    repeatLengths r v s = .next { pushLens r v s with dphase := .lens } := by
  rw [repeatLengths, if_neg (by omega)]

theorem repeatLengths_of_past {r : Nat} {v : BitVec 4} {s : State} (past : vectorLength s < s.idx.toNat + r) :
    repeatLengths r v s = .next (raise .badTree s) := by
  rw [repeatLengths, if_pos past]

/-- A repeat that ends within the vector: `r` equal lengths from `idx` on, and the symbol in `dsym`. -/
theorem repeatLengths_complete {sym r : Nat} {v : BitVec 4} {s : State} (wf : Ram.wf 320 0 s.lens = true)
    (short : s.hlit.toNat + s.hdist.toNat ≤ 320) (fits : s.idx.toNat + r ≤ s.hlit.toNat + s.hdist.toNat) :
    ∃ t, repeatLengths r v (enterOperand (.repExtra sym) s) = .next t ∧
      t = { s with lens := t.lens, idx := t.idx, dsym := BitVec.ofNat 5 sym, dphase := .lens } ∧
      t.idx.toNat = s.idx.toNat + r ∧
      ∀ k, Ram.read 0 t.lens k = if s.idx.toNat ≤ k ∧ k < s.idx.toNat + r then v else Ram.read 0 s.lens k := by
  refine ⟨_, repeatLengths_of_fits fits, ?_, ?_, ?_⟩
  · conv_lhs => rw [pushLens_frame]
    rw [pushLens_frame]
    rfl
  · exact pushLens_idx_toNat r v (s := enterOperand (.repExtra sym) s) (fits.trans short)
  · exact read_pushLens r v (s := enterOperand (.repExtra sym) s) wf (fits.trans short)

theorem clOrder_lt : ∀ k ∈ clOrder, k < 19 := by decide

/-! ## Lengths and distances (rules R386, R417, R418, R450) -/

/-- A length symbol leaves its length in `aux_len`, and a distance symbol comes next. -/
theorem lengthElement_eq (base extra x : Nat) (s : State) :
    lengthElement base extra x s =
      .next { s with auxLen := BitVec.ofNat 9 (base + x), auxExtra := BitVec.ofNat 4 extra, sub := .distSym } := rfl

/-- The registers that hold a distance before its check (rule R450). -/
def withDistance (base extra x : Nat) (s : State) : State :=
  { s with auxDist := BitVec.ofNat 16 (base + x), auxExtra := BitVec.ofNat 4 extra, sub := .distExtra }

theorem distanceElement_eq (base extra x : Nat) (s : State) :
    distanceElement base extra x s =
      if tooFar (withDistance base extra x s) then .next (raise .farOffset (withDistance base extra x s))
      else .next { withDistance base extra x s with sub := .copy } := rfl

theorem tooFar_withDistance {base extra x : Nat} (s : State) (small : base + x < 2 ^ 16) :
    tooFar (withDistance base extra x s) = true ↔ available s < base + x := by
  have dist : (withDistance base extra x s).auxDist.toNat = base + x := Nat.mod_eq_of_lt small
  rw [tooFar, dist, decide_eq_true_eq]
  rfl

theorem distanceElement_of_near {base extra x : Nat} {s : State} (small : base + x < 2 ^ 16) (near : base + x ≤ available s) :
    distanceElement base extra x s =
      .next { s with auxDist := BitVec.ofNat 16 (base + x), auxExtra := BitVec.ofNat 4 extra, sub := .copy } := by
  rw [distanceElement_eq, if_neg]
  · rfl
  · rw [tooFar_withDistance s small]
    omega

theorem distanceElement_of_far {base extra x : Nat} {s : State} (small : base + x < 2 ^ 16) (far : available s < base + x) :
    distanceElement base extra x s = .next (raise .farOffset (withDistance base extra x s)) := by
  rw [distanceElement_eq, if_pos ((tooFar_withDistance s small).mpr far)]

/-- A near distance whose extra value is a field of `n` bits. -/
theorem distanceElement_of_field {base extra n : Nat} {s : State} (small : base + 2 ^ n ≤ 2 ^ 16) (x : BitVec n)
    (near : base + x.toNat ≤ available s) :
    distanceElement base extra x.toNat s =
      .next { s with auxDist := BitVec.ofNat 16 (base + x.toNat), auxExtra := BitVec.ofNat 4 extra, sub := .copy } :=
  distanceElement_of_near (by have := x.isLt; omega) near

/-- The largest distance is 32768 (rule R455). -/
theorem dbase_add_le (sym x : Nat) : dbase sym + x % 2 ^ dextra sym ≤ 32768 := by
  have largest : dbase sym + 2 ^ dextra sym ≤ 32769 :=
    getD_of_forall (P := fun p : Nat × Nat => p.1 + 2 ^ p.2 ≤ 32769) (by decide) (by decide) _
  have small : x % 2 ^ dextra sym < 2 ^ dextra sym := Nat.mod_lt _ (by positivity)
  omega

end Sys2Proof.Machine

namespace Sys2Proof

open Machine

/-- Settles O19: once all code-length lengths are in, the step is DYN-CTBUILD, which has the build's two outcomes. -/
theorem codeLengthTableStep : Obligations.CodeLengthTableStep := by
  intro s running dynamic clens all
  have complete : s.hclen.toNat ≤ s.idx.toNat := by
    rw [all, BitVec.toNat_setWidth]
    have := s.hclen.isLt
    omega
  have run := step_of_ctBuild running (phase_of_ctBuild dynamic clens complete)
  exact ⟨fun T h => run.trans (ctBuild_of_some h), fun h => run.trans (ctBuild_of_none h)⟩

/-- Settles O20: once all lengths are in, the step is DYN-BUILD, whose two builds have two outcomes each. -/
theorem blockTablesStep : Obligations.BlockTablesStep := by
  intro s running dynamic lens all
  have run := step_of_dynBuild running (phase_of_dynBuild dynamic lens (show vectorLength s ≤ s.idx.toNat from all.ge))
  refine ⟨fun h => run.trans (dynBuild_of_no_endOfBlock h), fun eob h => run.trans (dynBuild_of_none eob h), fun T eob h => ?_⟩
  have run' := run.trans (dynBuild_of_some eob h)
  exact ⟨fun hd => run'.trans (dynBuildDist_of_none (s := { s with lt := T }) hd),
    fun U hd => run'.trans (dynBuildDist_of_some (s := { s with lt := T }) hd)⟩

/-- Settles O21: with a literal pending the step is DEC-EMIT, and the target's room decides. -/
theorem emitStep : Obligations.EmitStep := by
  intro s running decoding litLen pending
  have run := step_of_emit running (phase_of_emit decoding litLen pending)
  refine ⟨fun room => ?_, fun full => ?_⟩
  · rw [run, emitLiteral, if_neg room]
    rfl
  · rw [run, emitLiteral, if_pos full]
    rfl

/-- Settles O24: each header sets its registers, whatever the state; the reserved one raises. -/
theorem blockHeadersComplete : Obligations.BlockHeadersComplete := fun _ _ => ⟨rfl, rfl, rfl, rfl⟩

/-- Settles O25: NLEN is or is not the complement of LEN. -/
theorem storedHeaderCompletes : Obligations.StoredHeaderCompletes := fun _ _ _ =>
  ⟨execStoredhdr_of_complement, execStoredhdr_of_other⟩

/-- Settles O29: legal counts fit their registers, and any other count raises. -/
theorem countsComplete : Obligations.CountsComplete := fun s hlit hdist hclen =>
  ⟨fun hl hd => ⟨_, execDynhdr_of_legal hl hd, withCounts_hlit hlit hdist hclen s, withCounts_hdist (hlit := hlit) hclen s hd,
    withCounts_hclen hlit hdist hclen s, fun _ => rfl, rfl⟩,
   fun h => ⟨_, execDynhdr_of_illegal h, rfl⟩⟩

/-- Settles O30: one write of `clens`, at the index that ORDER gives. -/
theorem codeLengthLengthsComplete : Obligations.CodeLengthLengthsComplete := by
  intro s len wf hidx
  refine ⟨_, rfl, rfl, fun k => ?_⟩
  have inside : s.idx.toNat < clOrder.length := hidx
  have place : [16, 17, 18, 0, 8, 7, 9, 6, 10, 5, 11, 4, 12, 3, 13, 2, 14, 1, 15][s.idx.toNat]? =
      some (clOrder.getD s.idx.toNat Config.clensSize) := by
    rw [List.getD_eq_getElem _ _ inside]
    exact List.getElem?_eq_getElem inside
  have small : clOrder.getD s.idx.toNat Config.clensSize < 19 := by
    rw [List.getD_eq_getElem _ _ inside]
    exact clOrder_lt _ (List.getElem_mem inside)
  rw [place]
  refine (Ram.read_write wf _ len k).trans ?_
  simp only [small, and_true, Option.some.injEq]

/-- Settles O32: each repeat pushes its length `r` times. -/
theorem repeatsComplete : Obligations.RepeatsComplete := by
  intro s wf short
  refine ⟨fun x some fits => ?_, fun x fits => repeatLengths_complete wf short fits,
    fun x fits => repeatLengths_complete wf short fits⟩
  have run : exec (.rep16 x) s = repeatLengths (3 + x.toNat) (Ram.read 0 s.lens (s.idx.toNat - 1)) (enterOperand (.repExtra 16) s) := by
    simp only [exec, execRep16, if_neg some]
  rw [run]
  exact repeatLengths_complete wf short fits

/-- Settles O33: the two checks of a repeat come before its first write. -/
theorem repeatsTrap : Obligations.RepeatsTrap := by
  intro s
  refine ⟨fun x h => ?_, fun x h => repeatLengths_of_past h, fun x h => repeatLengths_of_past h⟩
  simp only [exec, execRep16]
  split
  · rfl
  · exact repeatLengths_of_past (h.resolve_left ‹_›)

/-- Settles O34: LIT has one outcome, EOB is the end of a block. -/
theorem literalAndEndOfBlockComplete : Obligations.LiteralAndEndOfBlockComplete := by
  refine fun s => ⟨fun b => rfl, fun more => ?_, fun last => ?_⟩
  · rw [← afterStep_endBlock_of_not_final more]
    rfl
  · rw [← afterStep_endBlock_of_final last]
    rfl

/-- Settles O35: each is `lengthElement` with the base and the extra bits of rule R454. -/
theorem lengthSymbols257To268Complete : Obligations.LengthSymbols257To268Complete := fun s =>
  ⟨lengthElement_eq 3 0 0 s, lengthElement_eq 4 0 0 s, lengthElement_eq 5 0 0 s, lengthElement_eq 6 0 0 s,
    lengthElement_eq 7 0 0 s, lengthElement_eq 8 0 0 s, lengthElement_eq 9 0 0 s, lengthElement_eq 10 0 0 s,
    fun x => lengthElement_eq 11 1 x.toNat s, fun x => lengthElement_eq 13 1 x.toNat s,
    fun x => lengthElement_eq 15 1 x.toNat s, fun x => lengthElement_eq 17 1 x.toNat s⟩

/-- Settles O36: each is `lengthElement` with the base and the extra bits of rule R454. -/
theorem lengthSymbols269To285Complete : Obligations.LengthSymbols269To285Complete := fun s =>
  ⟨fun x => lengthElement_eq 19 2 x.toNat s, fun x => lengthElement_eq 23 2 x.toNat s,
    fun x => lengthElement_eq 27 2 x.toNat s, fun x => lengthElement_eq 31 2 x.toNat s,
    fun x => lengthElement_eq 35 3 x.toNat s, fun x => lengthElement_eq 43 3 x.toNat s,
    fun x => lengthElement_eq 51 3 x.toNat s, fun x => lengthElement_eq 59 3 x.toNat s,
    fun x => lengthElement_eq 67 4 x.toNat s, fun x => lengthElement_eq 83 4 x.toNat s,
    fun x => lengthElement_eq 99 4 x.toNat s, fun x => lengthElement_eq 115 4 x.toNat s,
    fun x => lengthElement_eq 131 5 x.toNat s, fun x => lengthElement_eq 163 5 x.toNat s,
    fun x => lengthElement_eq 195 5 x.toNat s, fun x => lengthElement_eq 227 5 x.toNat s, lengthElement_eq 258 0 0 s⟩

/-- Settles O37: the four invalid symbols have one meaning, the error. -/
theorem invalidSymbolsRaiseBadCode : Obligations.InvalidSymbolsRaiseBadCode := fun _ => ⟨rfl, rfl, rfl, rfl⟩

/-- Settles O38: each is `distanceElement`, and a distance that the history reaches passes its check. -/
theorem distanceSymbols0To14Complete : Obligations.DistanceSymbols0To14Complete := fun s =>
  ⟨fun h => distanceElement_of_near (s := s) (x := 0) (by decide) h, fun h => distanceElement_of_near (s := s) (x := 0) (by decide) h,
    fun h => distanceElement_of_near (s := s) (x := 0) (by decide) h, fun h => distanceElement_of_near (s := s) (x := 0) (by decide) h,
    distanceElement_of_field (by decide), distanceElement_of_field (by decide), distanceElement_of_field (by decide),
    distanceElement_of_field (by decide), distanceElement_of_field (by decide), distanceElement_of_field (by decide),
    distanceElement_of_field (by decide), distanceElement_of_field (by decide), distanceElement_of_field (by decide),
    distanceElement_of_field (by decide), distanceElement_of_field (by decide)⟩

/-- Settles O39: each is `distanceElement`, and a distance that the history reaches passes its check. -/
theorem distanceSymbols15To29Complete : Obligations.DistanceSymbols15To29Complete := fun s =>
  ⟨distanceElement_of_field (by decide), distanceElement_of_field (by decide), distanceElement_of_field (by decide),
    distanceElement_of_field (by decide), distanceElement_of_field (by decide), distanceElement_of_field (by decide),
    distanceElement_of_field (by decide), distanceElement_of_field (by decide), distanceElement_of_field (by decide),
    distanceElement_of_field (by decide), distanceElement_of_field (by decide), distanceElement_of_field (by decide),
    distanceElement_of_field (by decide), distanceElement_of_field (by decide), distanceElement_of_field (by decide)⟩

/-- Settles O40: every distance instruction is `distanceElement` with its symbol's base and extra bits, and its check comes first. -/
theorem farDistancesRaiseFarOffset : Obligations.FarDistancesRaiseFarOffset := by
  intro s sym x i h far
  obtain ⟨j, hj, -, meaning⟩ := distanceInstr_of_lt (distanceInstr_lt h) x
  obtain rfl := Option.some.inj (h.symm.trans hj)
  have small := dbase_add_le sym x
  rw [meaning, distanceElement_of_far (by omega) far]
  rfl

end Sys2Proof

/-! # Commands, host accesses and error entry (47_stream_driver.md, 10_state.md, 60_exceptions.md) -/

namespace Sys2Proof.Machine

/-! ## INFLATE and SET_DICTIONARY (rules R86, R96, R492 to R499) -/

theorem execInflate_of_bad {s : State} (final : Bool) (bad : s.bstate = .bad) :
    execInflate final s = .next { s with status := .error } := by
  rw [execInflate, if_pos bad]

/-- INFLATE with spans that are not refused: the block state decides. -/
theorem execInflate_of_legal {s : State} (final : Bool) (good : s.bstate ≠ .bad)
    (src : s.srcPtr.toNat + s.srcLen.toNat ≤ 2 ^ 32) (dst : s.dstPtr.toNat + s.dstLen.toNat ≤ 2 ^ 32)
    (apart : spansOverlap s.srcPtr s.srcLen s.dstPtr s.dstLen = false) :
    execInflate final s =
      if s.bstate = .uninit then .next (raise .badState s)
      else if s.bstate = .finalConsumed then .next { s with status := .ok }
      else .next { s with tbegin := s.dstPtr, inflating := some final } := by
  rw [execInflate, if_neg good, (spanWraps_eq_false_iff _ _).mpr src, (spanWraps_eq_false_iff _ _).mpr dst, apart]
  rfl

theorem execInflate_of_source_wraps {s : State} (final : Bool) (good : s.bstate ≠ .bad)
    (wraps : 2 ^ 32 < s.srcPtr.toNat + s.srcLen.toNat) : execInflate final s = .refused .sourceSpanWraps := by
  rw [execInflate, if_neg good, if_pos ((spanWraps_iff _ _).mpr wraps)]

theorem execInflate_of_target_wraps {s : State} (final : Bool) (good : s.bstate ≠ .bad)
    (src : s.srcPtr.toNat + s.srcLen.toNat ≤ 2 ^ 32) (wraps : 2 ^ 32 < s.dstPtr.toNat + s.dstLen.toNat) :
    execInflate final s = .refused .targetSpanWraps := by
  rw [execInflate, if_neg good, (spanWraps_eq_false_iff _ _).mpr src, if_neg (by simp), if_pos ((spanWraps_iff _ _).mpr wraps)]

theorem execInflate_of_overlap {s : State} (final : Bool) (good : s.bstate ≠ .bad)
    (src : s.srcPtr.toNat + s.srcLen.toNat ≤ 2 ^ 32) (dst : s.dstPtr.toNat + s.dstLen.toNat ≤ 2 ^ 32)
    (overlap : spansOverlap s.srcPtr s.srcLen s.dstPtr s.dstLen = true) :
    execInflate final s = .refused .sourceTargetOverlap := by
  rw [execInflate, if_neg good, (spanWraps_eq_false_iff _ _).mpr src, (spanWraps_eq_false_iff _ _).mpr dst, overlap]
  rfl

theorem execSetDictionary_of_bad {s : State} (bad : s.bstate = .bad) :
    execSetDictionary s = .next { s with status := .error } := by
  rw [execSetDictionary, if_pos bad]

/-- SET_DICTIONARY with a span that is not refused: it is too late, or the dictionary is installed. -/
theorem execSetDictionary_of_legal {s : State} (good : s.bstate ≠ .bad) (dict : s.dictPtr.toNat + s.dictLen.toNat ≤ 2 ^ 32)
    (apart : spansOverlap s.dictPtr s.dictLen s.dstPtr s.dstLen = false) :
    execSetDictionary s =
      if dictionaryTooLate s then .next (raise .badState s) else .next { install s with status := .ok } := by
  rw [execSetDictionary, if_neg good, (spanWraps_eq_false_iff _ _).mpr dict, apart]
  rfl

theorem execSetDictionary_of_wraps {s : State} (good : s.bstate ≠ .bad) (wraps : 2 ^ 32 < s.dictPtr.toNat + s.dictLen.toNat) :
    execSetDictionary s = .refused .dictSpanWraps := by
  rw [execSetDictionary, if_neg good, if_pos ((spanWraps_iff _ _).mpr wraps)]

theorem execSetDictionary_of_overlap {s : State} (good : s.bstate ≠ .bad) (dict : s.dictPtr.toNat + s.dictLen.toNat ≤ 2 ^ 32)
    (overlap : spansOverlap s.dictPtr s.dictLen s.dstPtr s.dstLen = true) :
    execSetDictionary s = .refused .dictTargetOverlap := by
  rw [execSetDictionary, if_neg good, (spanWraps_eq_false_iff _ _).mpr dict, overlap]
  rfl

theorem dictionaryTooLate_iff (s : State) : dictionaryTooLate s = true ↔ s.bstate = .uninit ∨ s.consumedAny = true := by
  simp [dictionaryTooLate]

/-! ## Steps between commands (rules R30, R61, R93) -/

theorem step_of_empty_queue {s : State} (idle : s.inflating = none) (h : s.hostQueue = []) : step s = .next s := by
  simp only [step, idle, h]

theorem step_of_host {s : State} {a : HostAction} {rest : List HostAction} (idle : s.inflating = none)
    (h : s.hostQueue = a :: rest) : step s = hostStep a { s with hostQueue := rest } := by
  simp only [step, idle, h]

theorem registerAccessOk_iff (off : Word) (size : AccessSize) :
    registerAccessOk off size = true ↔ off.toNat % 4 = 0 ∧ size = .word := by
  simp [registerAccessOk]

theorem hostStep_write_of_some {off val : Word} {i : Instr} {s : State} (aligned : off.toNat % 4 = 0)
    (h : decodeHostWrite off val = some i) : hostStep (.write off .word val) s = exec i s := by
  simp only [hostStep, if_pos ((registerAccessOk_iff _ _).mpr ⟨aligned, rfl⟩), h]

theorem hostStep_write_of_none {off val : Word} {s : State} (aligned : off.toNat % 4 = 0) (h : decodeHostWrite off val = none) :
    hostStep (.write off .word val) s = .next (writePlainRegister off val s) := by
  simp only [hostStep, if_pos ((registerAccessOk_iff _ _).mpr ⟨aligned, rfl⟩), h]

theorem hostStep_read {off : Word} {s : State} (aligned : off.toNat % 4 = 0) :
    hostStep (.read off .word) s = .next { s with readback := readRegister off s } := by
  simp only [hostStep, if_pos ((registerAccessOk_iff _ _).mpr ⟨aligned, rfl⟩)]

theorem hostStep_write_refused {off val : Word} {size : AccessSize} {s : State} (h : ¬ registerAccessOk off size = true) :
    hostStep (.write off size val) s = .refused .registerAccess := by
  simp only [hostStep, if_neg h]

theorem hostStep_read_refused {off : Word} {size : AccessSize} {s : State} (h : ¬ registerAccessOk off size = true) :
    hostStep (.read off size) s = .refused .registerAccess := by
  simp only [hostStep, if_neg h]

/-- A write that is no command's reaches DICT_PTR and DICT_LEN, and nothing else. -/
theorem writePlainRegister_eq (off val : Word) (s : State) :
    writePlainRegister off val s = { s with
      dictPtr := if off = 0x18#32 then val else s.dictPtr
      dictLen := if off = 0x1C#32 then val else s.dictLen } := by
  unfold writePlainRegister
  split
  · rename_i h
    have other : off ≠ 0x1C#32 := by rw [h]; decide
    rw [if_neg other]
  · split
    · rfl
    · rfl

/-! ## RESULT (rule R63) -/

theorem resultWord_getLsbD (s : State) (j : Nat) :
    (resultWord s).getLsbD j =
      (decide (j < 2) && s.status.code.getLsbD j || decide (4 ≤ j) && decide (j < 7) && s.err.code.getLsbD (j - 4)) := by
  rw [resultWord, BitVec.getLsbD_or, BitVec.getLsbD_setWidth, BitVec.getLsbD_shiftLeft, BitVec.getLsbD_setWidth]
  congr 1
  · by_cases h : j < 2
    · simp [h, show j < 32 by omega]
    · simp [h, BitVec.getLsbD_of_ge s.status.code j (by omega)]
  · by_cases low : j < 4
    · simp [low, show ¬ 4 ≤ j by omega]
    · by_cases h : j < 7
      · simp [h, low, show 4 ≤ j by omega, show j < 32 by omega, show j - 4 < 32 by omega]
      · simp [h, BitVec.getLsbD_of_ge s.err.code (j - 4) (by omega)]

theorem resultWord_congr {s t : State} (status : t.status = s.status) (err : t.err = s.err) : resultWord t = resultWord s := by
  rw [resultWord, resultWord, status, err]

/-! ## Error entry (rule R610) -/

/-- Beside what rule R610 sets and rule R611 leaves free, an error keeps every register. -/
theorem raise_eq (c : ErrCode) (s : State) :
    raise c s = { s with
      bstate := .bad, err := c, status := .error, inflating := none
      srcPtr := (raise c s).srcPtr, srcLen := (raise c s).srcLen, dstPtr := (raise c s).dstPtr, dstLen := (raise c s).dstLen
      res := (raise c s).res, bc := (raise c s).bc
      window := (raise c s).window, wEnd := (raise c s).wEnd, wCount := (raise c s).wCount
      mem := (raise c s).mem, draws := s.draws + 1 } := by
  simp only [raise, unspecifiedAfterError]

end Sys2Proof.Machine

namespace Sys2Proof

open Machine

/-- Settles O43: RESET has one outcome, and it sets the same registers to the same values again. -/
theorem resetCompletes : Obligations.ResetCompletes := fun _ => ⟨rfl, rfl⟩

/-- Settles O44: BAD is asked first; with legal spans the block state is one of three kinds. -/
theorem inflateStarts : Obligations.InflateStarts := by
  intro s final
  refine ⟨fun bad => execInflate_of_bad final bad, fun src dst apart => ⟨fun uninit => ?_, fun ended => ?_, fun runs => ?_⟩⟩
  · exact (execInflate_of_legal final (by simp [uninit]) src dst apart).trans (if_pos uninit)
  · exact (execInflate_of_legal final (by simp [ended]) src dst apart).trans (by simp [ended])
  · have other : s.bstate ≠ .bad ∧ s.bstate ≠ .uninit ∧ s.bstate ≠ .finalConsumed := by
      refine ⟨?_, ?_, ?_⟩ <;> (intro h; rw [h] at runs; cases runs)
    obtain ⟨good, reset, more⟩ := other
    exact (execInflate_of_legal final good src dst apart).trans (by rw [if_neg reset, if_neg more])

/-- Settles O45: the checks in their order, an overlap being a shared address. -/
theorem wrappedOrOverlappingSpansAreRefused : Obligations.WrappedOrOverlappingSpansAreRefused := fun _ final good =>
  ⟨execInflate_of_source_wraps final good, execInflate_of_target_wraps final good,
    fun src dst shared => execInflate_of_overlap final good src dst ((spansOverlap_iff _ _ _ _).mpr shared),
    execSetDictionary_of_wraps good,
    fun dict shared => execSetDictionary_of_overlap good dict ((spansOverlap_iff _ _ _ _).mpr shared)⟩

/-- Settles O47: with no INFLATE running the step is the host's next action, each kind of which has its own rule. -/
theorem hostStepsFollowTheRegisterMap : Obligations.HostStepsFollowTheRegisterMap := by
  intro s rest idle
  refine ⟨fun off val i queue aligned h => ?_, fun off val queue aligned h => ?_, fun off queue aligned => ?_,
    fun off val size bad queue => ?_, fun a v queue => step_of_host idle queue, step_of_empty_queue idle⟩
  · exact (step_of_host idle queue).trans (hostStep_write_of_some aligned h)
  · rw [step_of_host idle queue, hostStep_write_of_none aligned h, writePlainRegister_eq]
  · exact (step_of_host idle queue).trans (hostStep_read aligned)
  · have refuse : ¬ registerAccessOk off size = true := by
      rw [registerAccessOk_iff]
      tauto
    rcases queue with queue | queue
    · exact (step_of_host idle queue).trans (hostStep_write_refused refuse)
    · exact (step_of_host idle queue).trans (hostStep_read_refused refuse)

/-- Settles O48: RESULT bit by bit; the writes of the spans touch neither `status` nor `err`. -/
theorem resultWordFields : Obligations.ResultWordFields := by
  refine fun s => ⟨?_, ?_, fun j h0 h1 h4 h5 h6 => ?_, fun h v t next => ?_, fun _ => rfl⟩
  · refine BitVec.eq_of_getLsbD_eq fun j hj => ?_
    rw [BitVec.getLsbD_extractLsb', resultWord_getLsbD]
    simp [hj, show ¬ 4 ≤ j by omega]
  · refine BitVec.eq_of_getLsbD_eq fun j hj => ?_
    rw [BitVec.getLsbD_extractLsb', resultWord_getLsbD]
    simp [hj, show 4 + j < 7 by omega, show ¬ 4 + j < 2 by omega]
  · rw [resultWord_getLsbD]
    simp [show ¬ j < 2 by omega]
    omega
  · rcases next with next | next <;> cases h <;>
      (obtain rfl := Host.Outcome.next.inj next; exact resultWord_congr rfl rfl)

/-- Settles O50: the fields of `raise`. -/
theorem errorEntry : Obligations.ErrorEntry := fun c s => ⟨rfl, rfl, rfl, rfl, raise_eq c s⟩

/-- Settles O55: power-on evaluated; its empty spans are not refused, and UNINIT is too early for both commands. -/
theorem powerOnIsUninit : Obligations.PowerOnIsUninit :=
  ⟨rfl, rfl, rfl, rfl, rfl, rfl, rfl, rfl, rfl, fun _ => rfl, rfl⟩

/-- The storage at power-on: empty RAMs and an empty reservoir. -/
theorem storageInv_reset : StorageInv State.reset where
  mem := rfl
  clens := rfl
  lens := rfl
  lt := rfl
  dt := rfl
  ct := rfl
  window := rfl
  bc := by decide
  res := by decide
  wCount := by decide

/-- Settles O56: at power-on no INFLATE runs, no byte is taken, and the block state is UNINIT. -/
theorem resetMeetsTheInvariant : Obligations.ResetMeetsTheInvariant where
  storage := storageInv_reset
  slow := fun _ => by decide
  running := fun h => absurd rfl h
  room := fun h => absurd rfl h
  fresh := fun _ => .inl rfl
  dynamic := fun h => by cases h
  decoding := fun h => by cases h

end Sys2Proof

/-! # Copies and the window (42_sliding_window.md, 43_block_header_stored.md, 45_decoding_loop.md) -/

namespace Sys2Proof.Machine

/-! ## Bytes written one after another -/

/-- What memory holds after `k` writes at the addresses from `p` on. -/
theorem read_of_writes {m : Nat → Memory} {v : Nat → Byte} {p : Word} (wf : Memory.wf (m 0) = true)
    (next : ∀ k, m (k + 1) = Memory.write (m k) (p + BitVec.ofNat 32 k) (v k)) {k : Nat} (fits : k ≤ 2 ^ 32) (a : Word) :
    Memory.read (m k) a = if (a - p).toNat < k then v (a - p).toNat else Memory.read (m 0) a := by
  have canonical (k : Nat) : Memory.wf (m k) = true := by
    induction k with
    | zero => exact wf
    | succ k ih => rw [next]; exact Memory.wf_write ih _ _
  induction k with
  | zero => simp
  | succ k ih =>
    rw [next, Memory.read_write (canonical k), ih (by omega)]
    by_cases here : a = p + BitVec.ofNat 32 k
    · have last : (a - p).toNat = k := by rw [here]; bv_omega
      rw [if_pos here, if_pos (by omega), last]
    · have other : (a - p).toNat ≠ k := fun h => here (by rw [← h, BitVec.ofNat_toNat, BitVec.setWidth_eq, add_sub_cancel])
      rw [if_neg here]
      split_ifs <;> first | rfl | omega

/-! ## What `k` bytes of a match change (rules R88, R284, R451) -/

/-- One byte of a match. -/
theorem copyMatchByte_eq (s : State) :
    copyMatchByte s = { s with
      mem := Memory.write s.mem s.dstPtr (sourceOfMatch s.auxDist.toNat s)
      dstPtr := s.dstPtr + 1, dstLen := s.dstLen - 1, auxLen := s.auxLen - 1 } := rfl

/-- Beside host memory, `k` bytes of a match move the target span and count `aux_len` down. -/
theorem copyMatchByte_iterate_registers (k : Nat) (s : State) :
    copyMatchByte^[k] s = { s with
      mem := (copyMatchByte^[k] s).mem, dstPtr := s.dstPtr + BitVec.ofNat 32 k, dstLen := s.dstLen - BitVec.ofNat 32 k
      auxLen := s.auxLen - BitVec.ofNat 9 k } := by
  induction k with
  | zero => simp
  | succ k ih =>
    rw [Function.iterate_succ_apply', ih, copyMatchByte_eq]
    simp [BitVec.ofNat_add, sub_add_eq_sub_sub, BitVec.add_assoc]

theorem copyMatchByte_iterate_succ_mem (s : State) (k : Nat) :
    (copyMatchByte^[k + 1] s).mem = Memory.write (copyMatchByte^[k] s).mem (s.dstPtr + BitVec.ofNat 32 k)
      (sourceOfMatch s.auxDist.toNat (copyMatchByte^[k] s)) := by
  have regs := copyMatchByte_iterate_registers k s
  have dst : (copyMatchByte^[k] s).dstPtr = s.dstPtr + BitVec.ofNat 32 k := by rw [regs]
  have dist : (copyMatchByte^[k] s).auxDist = s.auxDist := by rw [regs]
  rw [Function.iterate_succ_apply', copyMatchByte_mem, dst, dist]

/-- Host memory after `k` bytes of a match. -/
theorem read_copyMatchByte_iterate {k : Nat} {s : State} (wf : Memory.wf s.mem = true) (fits : k ≤ 2 ^ 32) (a : Word) :
    Memory.read (copyMatchByte^[k] s).mem a =
      if (a - s.dstPtr).toNat < k then sourceOfMatch s.auxDist.toNat (copyMatchByte^[(a - s.dstPtr).toNat] s)
      else Memory.read s.mem a :=
  read_of_writes (m := fun k => (copyMatchByte^[k] s).mem) wf (copyMatchByte_iterate_succ_mem s) fits a

theorem produced_copyMatchByte_iterate {j : Nat} {s : State} (room : produced s + j < 2 ^ 32) :
    produced (copyMatchByte^[j] s) = produced s + j := by
  rw [copyMatchByte_iterate_registers]
  simp only [produced] at room ⊢
  bv_omega

/-- The source of the next byte of a match, after `j` bytes of it. -/
theorem sourceOfMatch_copyMatchByte_iterate {j : Nat} {s : State} (room : produced s + j < 2 ^ 32) :
    sourceOfMatch s.auxDist.toNat (copyMatchByte^[j] s) =
      if s.auxDist.toNat ≤ produced s + j
      then Memory.read (copyMatchByte^[j] s).mem (s.dstPtr + BitVec.ofNat 32 j - s.auxDist.setWidth 32)
      else windowByte s (s.wEnd - BitVec.ofNat 15 (s.auxDist.toNat - (produced s + j))) := by
  have dst : (copyMatchByte^[j] s).dstPtr = s.dstPtr + BitVec.ofNat 32 j := by rw [copyMatchByte_iterate_registers]
  have wEnd : (copyMatchByte^[j] s).wEnd = s.wEnd := by rw [copyMatchByte_iterate_registers]
  have byte (i : BitVec 15) : windowByte (copyMatchByte^[j] s) i = windowByte s i := by
    rw [copyMatchByte_iterate_registers]
    rfl
  rw [sourceOfMatch, produced_copyMatchByte_iterate room, dst, wEnd, byte, BitVec.ofNat_toNat]

/-- Every byte of a match is the byte `aux_dist` places before it, in what the whole match leaves. -/
theorem read_match {n : Nat} {s : State} (wf : Memory.wf s.mem = true) (back : 1 ≤ s.auxDist.toNat) (fits : n ≤ s.dstLen.toNat)
    (room : produced s + s.dstLen.toNat < 2 ^ 32) {j : Nat} (hj : j < n) :
    Memory.read (copyMatchByte^[n] s).mem (s.dstPtr + BitVec.ofNat 32 j) =
      if s.auxDist.toNat ≤ produced s + j
      then Memory.read (copyMatchByte^[n] s).mem (s.dstPtr + BitVec.ofNat 32 j - s.auxDist.setWidth 32)
      else windowByte s (s.wEnd - BitVec.ofNat 15 (s.auxDist.toNat - (produced s + j))) := by
  have small := s.dstLen.isLt
  have place : (s.dstPtr + BitVec.ofNat 32 j - s.dstPtr).toNat = j := by bv_omega
  rw [read_copyMatchByte_iterate wf (by omega), place, if_pos hj, sourceOfMatch_copyMatchByte_iterate (by omega)]
  split
  · have final : Memory.read (copyMatchByte^[j] s).mem (s.dstPtr + BitVec.ofNat 32 j - s.auxDist.setWidth 32) =
        Memory.read (copyMatchByte^[n] s).mem (s.dstPtr + BitVec.ofNat 32 j - s.auxDist.setWidth 32) := by
      rw [read_copyMatchByte_iterate wf (by omega), read_copyMatchByte_iterate wf (by omega)]
      generalize hq : (s.dstPtr + BitVec.ofNat 32 j - s.auxDist.setWidth 32 - s.dstPtr).toNat = q
      have offset : q < j ∨ n ≤ q := by
        have dist := s.auxDist.isLt
        bv_omega
      rcases offset with before | outside
      · rw [if_pos before, if_pos (by omega)]
      · rw [if_neg (by omega), if_neg (by omega)]
    exact final
  · rfl

/-! ## The window after a fold (rules R280, R282, R283, R288) -/

theorem windowByte_setWindow {s : State} (wf : Ram.wf 32768 0 s.window = true) (i : BitVec 15) (v : Byte) (x : BitVec 15) :
    windowByte (setWindow i v s) x = if x = i then v else windowByte s x := by
  have size : i.toNat < 32768 := i.isLt
  refine (Ram.read_write wf i.toNat v x.toNat).trans ?_
  simp only [size, and_true, BitVec.toNat_inj]
  rfl

/-- The window after `k` bytes of a fold. -/
theorem windowByte_foldBytes {k : Nat} (i : Nat) {s : State} (wf : Ram.wf 32768 0 s.window = true) (fits : k ≤ 32768)
    (x : BitVec 15) : windowByte (foldBytes k i s) x =
      if (x - s.wEnd).toNat < k then Memory.read s.mem (s.tbegin + BitVec.ofNat 32 (i + (x - s.wEnd).toNat))
      else windowByte s x := by
  induction k generalizing i s with
  | zero => simp [foldBytes]
  | succ k ih =>
    have next : Ram.wf 32768 0 (setWindow s.wEnd (Memory.read s.mem (s.tbegin + BitVec.ofNat 32 i)) s).window = true :=
      Ram.wf_write wf _ _
    rw [foldBytes, ih (i + 1) (by exact next) (by omega)]
    have first : windowByte { setWindow s.wEnd (Memory.read s.mem (s.tbegin + BitVec.ofNat 32 i)) s with wEnd := s.wEnd + 1 } x =
        if x = s.wEnd then Memory.read s.mem (s.tbegin + BitVec.ofNat 32 i) else windowByte s x :=
      windowByte_setWindow wf _ _ x
    rw [first]
    simp only [setWindow_mem, setWindow_tbegin]
    by_cases here : x = s.wEnd
    · have past : ¬ (x - (s.wEnd + 1)).toNat < k := by rw [here]; bv_omega
      have zero : (x - s.wEnd).toNat = 0 := by rw [here]; simp
      rw [if_neg past, if_pos here, if_pos (by omega), zero, Nat.add_zero]
    · have shift : (x - s.wEnd).toNat = (x - (s.wEnd + 1)).toNat + 1 := by bv_omega
      rw [if_neg here, shift, Nat.add_assoc, Nat.add_comm 1]
      simp only [Nat.add_lt_add_iff_right]

/-- A fold touches the window's registers and `tbegin` only. -/
theorem fold_frame (s : State) :
    fold s = { s with window := (fold s).window, wEnd := (fold s).wEnd, wCount := (fold s).wCount, tbegin := s.dstPtr } := by
  simp only [fold]
  rw [foldBytes_frame]

theorem fold_wEnd (s : State) : (fold s).wEnd = s.wEnd + BitVec.ofNat 15 (min (produced s) 32768) := foldBytes_wEnd _ _ _

theorem fold_wCount_toNat (s : State) : (fold s).wCount.toNat = min 32768 (s.wCount.toNat + produced s) :=
  Nat.mod_eq_of_lt (by rw [Config.wsize]; omega)

theorem produced_fold (s : State) : produced (fold s) = 0 := by
  rw [fold_frame]
  simp [produced]

theorem available_fold (s : State) : available (fold s) = min 32768 (available s) := by
  rw [available, produced_fold, fold_wCount_toNat, Nat.add_zero, available]

/-- Every distance up to the window's size reads the same byte before and after a fold. -/
theorem sourceOfMatch_fold {s : State} (wf : Ram.wf 32768 0 s.window = true) {d : Nat} (lo : 1 ≤ d) (hi : d ≤ 32768) :
    sourceOfMatch d (fold s) = sourceOfMatch d s := by
  have folded : windowByte (fold s) ((fold s).wEnd - BitVec.ofNat 15 d) =
      windowByte (foldBytes (min (produced s) 32768) (produced s - 32768) s)
        (s.wEnd + BitVec.ofNat 15 (min (produced s) 32768) - BitVec.ofNat 15 d) := by
    rw [fold_wEnd]
    rfl
  rw [sourceOfMatch, produced_fold, if_neg (by omega), Nat.sub_zero, folded, windowByte_foldBytes _ wf (by omega), sourceOfMatch]
  by_cases recent : d ≤ produced s
  · have place : (s.wEnd + BitVec.ofNat 15 (min (produced s) 32768) - BitVec.ofNat 15 d - s.wEnd).toNat =
        min (produced s) 32768 - d := by bv_omega
    have address : s.tbegin + BitVec.ofNat 32 (produced s - 32768 + (min (produced s) 32768 - d)) =
        s.dstPtr - BitVec.ofNat 32 d := by
      rw [show produced s - 32768 + (min (produced s) 32768 - d) = produced s - d by omega]
      simp only [produced] at recent ⊢
      bv_omega
    rw [place, if_pos (by omega), if_pos recent, address]
  · have place : (s.wEnd + BitVec.ofNat 15 (min (produced s) 32768) - BitVec.ofNat 15 d - s.wEnd).toNat =
        32768 - (d - produced s) := by bv_omega
    have index : s.wEnd + BitVec.ofNat 15 (min (produced s) 32768) - BitVec.ofNat 15 d =
        s.wEnd - BitVec.ofNat 15 (d - produced s) := by bv_omega
    rw [place, if_neg (by omega), if_neg recent, index]

/-! ## The window after SET_DICTIONARY (rule R286) -/

/-- The window after `k` dictionary bytes. -/
theorem windowByte_installBytes {k i : Nat} (a : Word) {s : State} (wf : Ram.wf 32768 0 s.window = true) (fits : i + k ≤ 32768)
    (x : BitVec 15) : windowByte (installBytes k i a s) x =
      if i ≤ x.toNat ∧ x.toNat < i + k then Memory.read s.mem (a + BitVec.ofNat 32 (x.toNat - i)) else windowByte s x := by
  induction k generalizing i a s with
  | zero => rw [if_neg (by omega)]; rfl
  | succ k ih =>
    have next : Ram.wf 32768 0 (setWindow (BitVec.ofNat 15 i) (Memory.read s.mem a) s).window = true := Ram.wf_write wf _ _
    have here : x = BitVec.ofNat 15 i ↔ x.toNat = i := by
      rw [← BitVec.toNat_inj, BitVec.toNat_ofNat, Nat.mod_eq_of_lt (show i < 2 ^ 15 by omega)]
    rw [installBytes, ih (a + 1) next (by omega), windowByte_setWindow wf, setWindow_mem]
    simp only [here]
    by_cases first : x.toNat = i
    · rw [if_neg (by omega), if_pos first, if_pos (by omega), first, Nat.sub_self]
      simp
    · rw [if_neg first]
      by_cases later : i + 1 ≤ x.toNat ∧ x.toNat < i + 1 + k
      · have shift : x.toNat - i = 1 + (x.toNat - (i + 1)) := by omega
        have address : a + BitVec.ofNat 32 (x.toNat - i) = a + 1 + BitVec.ofNat 32 (x.toNat - (i + 1)) := by
          rw [shift, BitVec.ofNat_add, ← BitVec.add_assoc]
          rfl
        rw [if_pos later, if_pos (by omega), address]
      · rw [if_neg later, if_neg (by omega)]

/-- Installing a dictionary touches the window's registers only. -/
theorem install_frame (s : State) :
    install s = { s with window := (install s).window, wEnd := (install s).wEnd, wCount := (install s).wCount } := by
  simp only [install]
  rw [installBytes_frame]

theorem install_wCount_toNat (s : State) : (install s).wCount.toNat = min s.dictLen.toNat 32768 :=
  Nat.mod_eq_of_lt (by rw [Config.wsize]; omega)

theorem install_wEnd_toNat (s : State) : (install s).wEnd.toNat = min s.dictLen.toNat 32768 % 32768 := rfl

/-- The window holds the tail of the dictionary. -/
theorem windowByte_install {s : State} (wf : Ram.wf 32768 0 s.window = true) {i : Nat} (hi : i < min s.dictLen.toNat 32768) :
    windowByte (install s) (BitVec.ofNat 15 i) =
      Memory.read s.mem (s.dictPtr + BitVec.ofNat 32 (s.dictLen.toNat - min s.dictLen.toNat 32768 + i)) := by
  have index : (BitVec.ofNat 15 i).toNat = i := Nat.mod_eq_of_lt (by omega)
  have bytes := windowByte_installBytes (k := min s.dictLen.toNat 32768) (i := 0)
    (s.dictPtr + s.dictLen - BitVec.ofNat 32 (min s.dictLen.toNat 32768)) wf (by omega) (BitVec.ofNat 15 i)
  rw [index, if_pos (by omega), Nat.sub_zero] at bytes
  refine Eq.trans ?_ (bytes.trans ?_)
  · rfl
  · congr 1
    bv_omega

end Sys2Proof.Machine

namespace Sys2Proof

open Machine

/-- Settles O22: the match is `copyMatchByte` iterated, and no byte it reads is written later in the match. -/
theorem copyRepeatsTheHistory : Obligations.CopyRepeatsTheHistory := by
  intro s running decoding copy wf back fits room
  have small := s.dstLen.isLt
  have run : step s = .next { copyMatchByte^[s.auxLen.toNat] s with sub := .litLen } := by
    rw [step_of_copy running (phase_of_copy decoding copy), copyStep, copyMatch_spec, if_pos fits, Flow.finish]
  refine ⟨_, run, ?_, fun j hj => read_match wf back fits room hj, fun a out => ?_⟩
  · conv_lhs => rw [copyMatchByte_iterate_registers]
    simp [BitVec.ofNat_toNat]
  · refine (read_copyMatchByte_iterate wf (by omega) a).trans ?_
    rw [if_neg (by omega)]

/-- Settles O23: the same as far as the target has room, and then the suspension. -/
theorem copySuspendsWhenTheTargetFills : Obligations.CopySuspendsWhenTheTargetFills := by
  intro s running decoding copy wf back short room
  have run : step s = .next (suspendTarget (copyMatchByte^[s.dstLen.toNat] s)) := by
    rw [step_of_copy running (phase_of_copy decoding copy), copyStep, copyMatch_spec, if_neg (by omega), Flow.finish]
  refine ⟨_, run, ?_, fun j hj => read_match wf back le_rfl room hj, fun a out => ?_⟩
  · conv_lhs => rw [copyMatchByte_iterate_registers]
    simp [BitVec.ofNat_toNat]
  · rw [inTarget] at out
    rw [read_copyMatchByte_iterate wf s.dstLen.isLt.le, if_neg out]

/-- Settles O26: the block is `storeSourceByte` iterated, and neither span ends in it. -/
theorem storedDataCopiesTheSource : Obligations.StoredDataCopiesTheSource := by
  intro s wf slow src dst apart
  have run : exec .storedData s = .next (afterStep (endBlock (storeSourceByte^[s.srem.toNat] s))) := by
    rw [exec_storedData, copyStored_spec _ s slow, if_pos ⟨dst, src⟩, Flow.finish]
  have any : (s.srem.toNat != 0) = (s.srem != 0) := by rw [Bool.eq_iff_iff]; simp [← BitVec.toNat_inj]
  have fits : s.srem.toNat ≤ 2 ^ 32 := by have := s.srem.isLt; omega
  refine ⟨_, run, ?_, fun j hj => read_storeSourceByte_iterate _ wf fits (fun i j hi hj => apart i j hi hj) hj,
    fun a out => read_storeSourceByte_iterate_of_outside _ wf out⟩
  conv_lhs => rw [storeSourceByte_iterate_registers, any]
  simp [BitVec.ofNat_toNat]

/-- Settles O41: the last bytes of the output go where the window's ends meet, so a distance counts the same bytes back. -/
theorem foldKeepsTheHistory : Obligations.FoldKeepsTheHistory := by
  intro s wf _
  refine ⟨fun d lo hi => sourceOfMatch_fold wf lo hi, fun d hi => ?_, fold_frame s⟩
  rw [available_fold]
  omega

/-- Settles O42: BAD is asked first, then whether it is too late; the bytes installed are the last of the dictionary. -/
theorem dictionaryFillsTheWindow : Obligations.DictionaryFillsTheWindow := by
  refine fun s => ⟨execSetDictionary_of_bad, fun good dict apart => ⟨fun late => ?_, fun reset fresh wf => ?_⟩⟩
  · exact (execSetDictionary_of_legal good dict apart).trans (if_pos ((dictionaryTooLate_iff s).mpr late))
  · have early : ¬ dictionaryTooLate s = true := by simp [dictionaryTooLate_iff, reset, fresh]
    refine ⟨_, (execSetDictionary_of_legal good dict apart).trans (if_neg early), ?_, install_wCount_toNat s,
      install_wEnd_toNat s, fun i hi => windowByte_install wf hi⟩
    conv_lhs => rw [install_frame]

end Sys2Proof

/-! # The whole machine: what every instruction can do, and what it leaves unchanged -/

namespace Sys2Proof.Machine

/-! ## All that an instruction can do -/

/-- Two states with the same memories, RAMs, reservoir and host's registers. -/
structure SameStorage (s t : State) : Prop where
  mem       : t.mem = s.mem := by rfl
  clens     : t.clens = s.clens := by rfl
  lens      : t.lens = s.lens := by rfl
  lt        : t.lt = s.lt := by rfl
  dt        : t.dt = s.dt := by rfl
  ct        : t.ct = s.ct := by rfl
  window    : t.window = s.window := by rfl
  bc        : t.bc = s.bc := by rfl
  res       : t.res = s.res := by rfl
  wCount    : t.wCount = s.wCount := by rfl
  hostQueue : t.hostQueue = s.hostQueue := by rfl
  dictPtr   : t.dictPtr = s.dictPtr := by rfl
  dictLen   : t.dictLen = s.dictLen := by rfl
  readback  : t.readback = s.readback := by rfl
  draws     : t.draws = s.draws := by rfl

/-- Two states with the same target span. -/
structure SameTarget (s t : State) : Prop where
  dstPtr : t.dstPtr = s.dstPtr := by rfl
  dstLen : t.dstLen = s.dstLen := by rfl

/-- The kinds of meaning that instructions have. -/
inductive Meaning (s : State) : Instr → Result → Prop
  /-- registers of control only -/
  | registers {i : Instr} {t : State} (same : SameStorage s t) : Meaning s i (.next t)
  /-- an error, after registers of control -/
  | error {i : Instr} (c : ErrCode) {t : State} (same : SameStorage s t) (target : SameTarget s t) : Meaning s i (.next (raise c t))
  /-- a refusal -/
  | refused {i : Instr} (r : Refusal) : Meaning s i (.refused r)
  /-- the copy of a stored block -/
  | storedData {r : Result} (h : (copyStored s.srem.toNat s).finish (fun t => afterStep (endBlock t)) = r) : Meaning s .storedData r
  /-- `clens` cleared, after registers of control -/
  | counts {i : Instr} {t : State} (same : SameStorage s t) : Meaning s i (.next { t with clens := [], idx := 0, dphase := .clens })
  /-- one write of `clens` -/
  | clen {i : Instr} {t : State} (k : Nat) (v : BitVec 3) (same : SameStorage (setClen k v s) t) : Meaning s i (.next t)
  /-- writes of `lens` -/
  | lens {i : Instr} {t : State} (r : Nat) (v : BitVec 4) (same : SameStorage (pushLens r v s) t) : Meaning s i (.next t)
  /-- the end of a block -/
  | endOfBlock : Meaning s .eob (.next (afterStep (endBlock s)))
  /-- RESET -/
  | reset : Meaning s .reset (.next (resetRegisters s))
  /-- a dictionary -/
  | install {t : State} (same : SameStorage (install s) t) : Meaning s .setDictionary (.next t)

theorem meaning_lengthElement (s : State) (i : Instr) (base extra x : Nat) : Meaning s i (lengthElement base extra x s) :=
  .registers {}

theorem meaning_distanceElement (s : State) (i : Instr) (base extra x : Nat) : Meaning s i (distanceElement base extra x s) := by
  rw [distanceElement_eq]
  split
  · exact .error _ {} {}
  · exact .registers {}

theorem meaning_codeLength (s : State) (i : Instr) (n : BitVec 4) : Meaning s i (codeLength n s) :=
  .lens 1 n {}

/-- A repeat reads its vector in the state whose registers hold its symbol. -/
theorem meaning_repeatLengths (s : State) (i : Instr) (sym r : Nat) (v : BitVec 4) :
    Meaning s i (repeatLengths r v (enterOperand (.repExtra sym) s)) := by
  unfold repeatLengths
  split
  · exact .error _ {} {}
  · refine .lens r v ?_
    rw [pushLens_frame r v s, pushLens_frame r v (enterOperand (.repExtra sym) s)]
    have same : (pushLens r v (enterOperand (.repExtra sym) s)).lens = (pushLens r v s).lens := by
      clear * -
      induction r generalizing s with
      | zero => rfl
      | succ r ih => exact ih (pushLen v s)
    exact { lens := same }

theorem meaning_rep16 (s : State) (x : BitVec 2) : Meaning s (.rep16 x) (execRep16 x s) := by
  unfold execRep16
  dsimp only
  split
  · exact .error _ {} {}
  · exact meaning_repeatLengths s _ 16 _ _

theorem meaning_storedhdr (s : State) (len nlen : BitVec 16) : Meaning s (.storedhdr len nlen) (execStoredhdr len nlen s) := by
  unfold execStoredhdr
  split
  · exact .error _ {} {}
  · exact .registers {}

theorem meaning_dynhdr (s : State) (hlit hdist : BitVec 5) (hclen : BitVec 4) :
    Meaning s (.dynhdr hlit hdist hclen) (execDynhdr hlit hdist hclen s) := by
  have same : SameStorage s (withCounts hlit hdist hclen s) := {}
  unfold execDynhdr
  dsimp only
  split
  · exact .error _ same {}
  · exact .counts same

theorem meaning_inflate (s : State) (final : Bool) : Meaning s (.inflate final) (execInflate final s) := by
  cases h : execInflate final s with
  | next t =>
    obtain ⟨-, rfl⟩ | ⟨-, -, -, -, ⟨-, rfl⟩ | ⟨-, rfl⟩ | ⟨-, -, rfl⟩⟩ := execInflate_cases h
    · exact .registers {}
    · exact .error _ {} {}
    · exact .registers {}
    · exact .registers {}
  | fault f => unfold execInflate at h; split_ifs at h
  | refused r => exact .refused r

theorem meaning_setDictionary (s : State) : Meaning s .setDictionary (execSetDictionary s) := by
  cases h : execSetDictionary s with
  | next t =>
    obtain ⟨-, rfl⟩ | ⟨-, -, -, ⟨-, rfl⟩ | ⟨-, rfl⟩⟩ := execSetDictionary_cases h
    · exact .registers {}
    · exact .error _ {} {}
    · exact .install {}
  | fault f => unfold execSetDictionary at h; split_ifs at h
  | refused r => exact .refused r

/-- Every instruction's meaning is of one of the kinds. -/
theorem exec_meaning (i : Instr) (s : State) : Meaning s i (exec i s) := by
  cases i
  case blockStored f | blockFixed f | blockDynamic f => exact .registers {}
  case blockReserved f => exact .error (t := setFinal f s) _ {} {}
  case storedhdr len nlen => exact meaning_storedhdr s len nlen
  case storedData => exact .storedData rfl
  case dynhdr l d c => exact meaning_dynhdr s l d c
  case cll len => exact .clen (clOrder.getD s.idx.toNat Config.clensSize) len {}
  case cl0 | cl1 | cl2 | cl3 | cl4 | cl5 | cl6 | cl7 | cl8 | cl9 | cl10 | cl11 | cl12 | cl13 | cl14 | cl15 =>
    exact meaning_codeLength s _ _
  case rep16 x => exact meaning_rep16 s x
  case rep17 x => exact meaning_repeatLengths s _ 17 _ _
  case rep18 x => exact meaning_repeatLengths s _ 18 _ _
  case lit b => exact .registers {}
  case eob => exact .endOfBlock
  case len257 | len258 | len259 | len260 | len261 | len262 | len263 | len264 | len285 => exact meaning_lengthElement s _ _ _ _
  case len265 x | len266 x | len267 x | len268 x | len269 x | len270 x | len271 x | len272 x | len273 x | len274 x | len275 x |
      len276 x | len277 x | len278 x | len279 x | len280 x | len281 x | len282 x | len283 x | len284 x =>
    exact meaning_lengthElement s _ _ _ _
  case ll286Invalid | ll287Invalid | dist30Invalid | dist31Invalid => exact .error .badCode (t := s) {} {}
  case dist0 | dist1 | dist2 | dist3 => exact meaning_distanceElement s _ _ _ _
  case dist4 x | dist5 x | dist6 x | dist7 x | dist8 x | dist9 x | dist10 x | dist11 x | dist12 x | dist13 x | dist14 x |
      dist15 x | dist16 x | dist17 x | dist18 x | dist19 x | dist20 x | dist21 x | dist22 x | dist23 x | dist24 x | dist25 x |
      dist26 x | dist27 x | dist28 x | dist29 x =>
    exact meaning_distanceElement s _ _ _ _
  case reset => exact .reset
  case setDictionary => exact meaning_setDictionary s
  case inflate f => exact meaning_inflate s f
  case cmdReserved opc => exact .registers {}
  case setSource h v => cases h <;> exact .registers {}
  case setTarget h v => cases h <;> exact .registers {}

end Sys2Proof.Machine

/-! # The whole machine: frames, stores within the target, and the storage invariant -/

namespace Sys2Proof.Machine

/-! ## The copying loops, and the ends of a command -/

/-- The state that a copy ends with. -/
def Flow.state : Flow → State
  | .done s => s
  | .sourceDry s => s
  | .targetFull s => s

/-- Every next state of a copying step: the copy is complete, or one of the spans suspends it. -/
theorem Flow.finish_cases {k : State → State} {f : Flow} {t : State} (h : f.finish k = .next t) :
    t = k f.state ∨ t = suspendSource f.state ∨ t = suspendTarget f.state := by
  cases f with
  | done s => exact .inl (Host.Outcome.next.inj h).symm
  | sourceDry s => exact .inr (.inl (Host.Outcome.next.inj h).symm)
  | targetFull s => exact .inr (.inr (Host.Outcome.next.inj h).symm)

/-- What every byte of a stored block keeps, the copy keeps. -/
theorem copyStored_ends {P : State → Prop} (held : ∀ s, P s → s.dstLen ≠ 0 → 8 ≤ s.bc.toNat → P (storeHeldByte s))
    (source : ∀ s, P s → s.dstLen ≠ 0 → s.srcLen ≠ 0 → P (storeSourceByte s)) (k : Nat) {s : State} (h : P s) :
    P (copyStored k s).state := by
  induction k generalizing s with
  | zero => exact h
  | succ k ih =>
    unfold copyStored
    split
    · exact h
    · split
      · exact ih (held s h ‹_› ‹_›)
      · split
        · exact h
        · exact ih (source s h ‹_› ‹_›)

/-- What every byte of a match keeps, the copy keeps. -/
theorem copyMatch_ends {P : State → Prop} (byte : ∀ s, P s → s.dstLen ≠ 0 → P (copyMatchByte s)) (k : Nat) {s : State} (h : P s) :
    P (copyMatch k s).state := by
  induction k generalizing s with
  | zero => exact h
  | succ k ih =>
    unfold copyMatch
    split
    · exact h
    · exact ih (byte s h ‹_›)

/-- The end of an INFLATE touches the window's registers, `tbegin`, `status` and `inflating` only. -/
theorem endInflate_frame (st : Status) (s : State) :
    endInflate st s = { s with
      window := (fold s).window, wEnd := (fold s).wEnd, wCount := (fold s).wCount, tbegin := s.dstPtr
      status := st, inflating := none } := by
  rw [endInflate]
  conv_lhs => rw [fold_frame]

theorem afterStep_cases (s : State) :
    (s.bstate = .finalConsumed ∧ afterStep s = endInflate .ok s) ∨ (s.bstate ≠ .finalConsumed ∧ afterStep s = s) := by
  unfold afterStep
  split
  · exact .inl ⟨‹_›, rfl⟩
  · exact .inr ⟨‹_›, rfl⟩

theorem suspendSource_cases (s : State) :
    suspendSource s = raise .inputEnd s ∨ suspendSource s = endInflate .sourceExhausted s := by
  unfold suspendSource
  split
  · exact .inl rfl
  · exact .inr rfl

/-! ## The host's registers (rules R59, R93) -/

/-- The host's queue and the registers that only the host writes stay. -/
structure HostFrame (s t : State) : Prop where
  hostQueue : t.hostQueue = s.hostQueue := by rfl
  dictPtr   : t.dictPtr = s.dictPtr := by rfl
  dictLen   : t.dictLen = s.dictLen := by rfl
  readback  : t.readback = s.readback := by rfl

theorem HostFrame.trans {s t u : State} (h : HostFrame s t) (h' : HostFrame t u) : HostFrame s u where
  hostQueue := h'.hostQueue.trans h.hostQueue
  dictPtr := h'.dictPtr.trans h.dictPtr
  dictLen := h'.dictLen.trans h.dictLen
  readback := h'.readback.trans h.readback

theorem SameStorage.hostFrame {s t : State} (h : SameStorage s t) : HostFrame s t :=
  ⟨h.hostQueue, h.dictPtr, h.dictLen, h.readback⟩

theorem hostFrame_raise (c : ErrCode) (s : State) : HostFrame s (raise c s) := {}

theorem hostFrame_endInflate (st : Status) (s : State) : HostFrame s (endInflate st s) := by
  rw [endInflate_frame]
  exact {}

theorem hostFrame_afterStep (s : State) : HostFrame s (afterStep s) := by
  rcases afterStep_cases s with ⟨-, h⟩ | ⟨-, h⟩
  · rw [h]
    exact hostFrame_endInflate _ s
  · rw [h]
    exact {}

theorem hostFrame_suspendSource (s : State) : HostFrame s (suspendSource s) := by
  rcases suspendSource_cases s with h | h
  · rw [h]
    exact hostFrame_raise _ s
  · rw [h]
    exact hostFrame_endInflate _ s

theorem hostFrame_copyStored (k : Nat) (s : State) : HostFrame s (copyStored k s).state :=
  copyStored_ends (P := HostFrame s) (fun _ h _ _ => h.trans {}) (fun _ h _ _ => h.trans {}) k {}

theorem hostFrame_install (s : State) : HostFrame s (install s) := by
  rw [install_frame]
  exact {}

theorem hostFrame_pushLens (r : Nat) (v : BitVec 4) (s : State) : HostFrame s (pushLens r v s) := by
  rw [pushLens_frame]
  exact {}

theorem hostFrame_exec {i : Instr} {s t : State} (h : exec i s = .next t) : HostFrame s t := by
  have meaning := exec_meaning i s
  rw [h] at meaning
  cases meaning with
  | registers same =>
    exact same.hostFrame
  | error c same _ =>
    exact same.hostFrame.trans (hostFrame_raise c _)
  | storedData copy =>
    have copied := hostFrame_copyStored s.srem.toNat s
    rcases Flow.finish_cases copy with rfl | rfl | rfl
    · exact copied.trans (HostFrame.trans {} (hostFrame_afterStep (endBlock _)))
    · exact copied.trans (hostFrame_suspendSource _)
    · exact copied.trans (hostFrame_endInflate _ _)
  | counts same =>
    exact same.hostFrame.trans {}
  | clen k v same =>
    exact HostFrame.trans {} same.hostFrame
  | lens r v same =>
    exact (hostFrame_pushLens r v s).trans same.hostFrame
  | endOfBlock =>
    exact HostFrame.trans {} (hostFrame_afterStep (endBlock s))
  | reset =>
    exact {}
  | install same =>
    exact (hostFrame_install s).trans same.hostFrame

/-! ## Stores within the target (rules R81, R89) -/

/-- From `s` to `t` only bytes of the target span of `s` are stored, and the span of `t` is a rest of it. -/
structure Within (s t : State) : Prop where
  wf   : Memory.wf t.mem = true
  rest : ∀ a, ¬ inTarget s a → ¬ inTarget t a
  read : ∀ a, ¬ inTarget s a → Memory.read t.mem a = Memory.read s.mem a

theorem Within.refl {s : State} (wf : Memory.wf s.mem = true) : Within s s := ⟨wf, fun _ h => h, fun _ _ => rfl⟩

theorem Within.trans {s t u : State} (h : Within s t) (h' : Within t u) : Within s u where
  wf := h'.wf
  rest a out := h'.rest a (h.rest a out)
  read a out := (h'.read a (h.rest a out)).trans (h.read a out)

/-- A state with the same memory and target. -/
theorem Within.congr {s t u : State} (h : Within s t) (mem : u.mem = t.mem) (target : SameTarget t u) : Within s u where
  wf := mem ▸ h.wf
  rest a out := by
    rw [inTarget, target.dstPtr, target.dstLen]
    exact h.rest a out
  read a out := by
    rw [mem]
    exact h.read a out

theorem within_storeByte {s : State} (wf : Memory.wf s.mem = true) (room : s.dstLen ≠ 0) (v : Byte) : Within s (storeByte v s) where
  wf := Memory.wf_write wf _ _
  rest a out := by
    simp only [inTarget, storeByte_dstPtr, storeByte_dstLen] at out ⊢
    bv_omega
  read a out := by
    rw [storeByte_mem, Memory.read_write wf, if_neg]
    rintro rfl
    simp only [inTarget] at out
    bv_omega

theorem within_storeHeldByte {s : State} (wf : Memory.wf s.mem = true) (room : s.dstLen ≠ 0) : Within s (storeHeldByte s) :=
  (within_storeByte wf room _).congr rfl {}

theorem within_storeSourceByte {s : State} (wf : Memory.wf s.mem = true) (room : s.dstLen ≠ 0) : Within s (storeSourceByte s) :=
  (within_storeByte wf room _).congr rfl {}

theorem within_copyMatchByte {s : State} (wf : Memory.wf s.mem = true) (room : s.dstLen ≠ 0) : Within s (copyMatchByte s) :=
  (within_storeByte wf room _).congr rfl {}

theorem within_copyStored (k : Nat) {s : State} (wf : Memory.wf s.mem = true) : Within s (copyStored k s).state :=
  copyStored_ends (P := Within s) (fun _ h room _ => h.trans (within_storeHeldByte h.wf room))
    (fun _ h room _ => h.trans (within_storeSourceByte h.wf room)) k (.refl wf)

theorem within_copyMatch (k : Nat) {s : State} (wf : Memory.wf s.mem = true) : Within s (copyMatch k s).state :=
  copyMatch_ends (P := Within s) (fun _ h room => h.trans (within_copyMatchByte h.wf room)) k (.refl wf)

/-- An error draws the bytes of the target span only (rule R611). -/
theorem read_raise {s : State} (wf : Memory.wf s.mem = true) (c : ErrCode) {a : Word} (out : ¬ inTarget s a) :
    Memory.read (raise c s).mem a = Memory.read s.mem a := by
  rw [raise_mem]
  exact unspecifiedTarget_read _ _ _ wf a (Nat.le_of_not_lt out)

theorem endInflate_mem (st : Status) (s : State) : (endInflate st s).mem = s.mem := by rw [endInflate_frame]

theorem afterStep_mem (s : State) : (afterStep s).mem = s.mem := by
  rcases afterStep_cases s with ⟨-, h⟩ | ⟨-, h⟩
  · rw [h, endInflate_mem]
  · rw [h]

theorem afterStep_endBlock_mem (s : State) : (afterStep (endBlock s)).mem = s.mem := afterStep_mem _

/-- From `s` to `t` no byte outside the target span of `s` changes. -/
def StoresWithin (s t : State) : Prop := ∀ a, ¬ inTarget s a → Memory.read t.mem a = Memory.read s.mem a

theorem storesWithin_of_mem {s t : State} (mem : t.mem = s.mem) : StoresWithin s t := fun a _ => by rw [mem]

theorem Within.stores {s t u : State} (h : Within s t) (mem : u.mem = t.mem) : StoresWithin s u := fun a out => by
  rw [mem]
  exact h.read a out

theorem Within.stores_raise {s t : State} (h : Within s t) (c : ErrCode) : StoresWithin s (raise c t) := fun a out =>
  (read_raise h.wf c (h.rest a out)).trans (h.read a out)

theorem Within.stores_suspendSource {s t : State} (h : Within s t) : StoresWithin s (suspendSource t) := by
  rcases suspendSource_cases t with e | e
  · rw [e]
    exact h.stores_raise _
  · rw [e]
    exact h.stores (endInflate_mem _ _)

theorem storesWithin_exec {i : Instr} {s t : State} (wf : Memory.wf s.mem = true) (h : exec i s = .next t) : StoresWithin s t := by
  have meaning := exec_meaning i s
  rw [h] at meaning
  cases meaning with
  | registers same =>
    exact storesWithin_of_mem same.mem
  | error c same target =>
    exact ((Within.refl wf).congr same.mem target).stores_raise c
  | storedData copy =>
    have copied := within_copyStored s.srem.toNat wf
    rcases Flow.finish_cases copy with rfl | rfl | rfl
    · exact copied.stores (afterStep_endBlock_mem _)
    · exact copied.stores_suspendSource
    · exact copied.stores (endInflate_mem _ _)
  | counts same =>
    exact storesWithin_of_mem same.mem
  | clen k v same =>
    exact storesWithin_of_mem same.mem
  | lens r v same =>
    exact storesWithin_of_mem (same.mem.trans (by rw [pushLens_frame]))
  | endOfBlock =>
    exact storesWithin_of_mem (afterStep_endBlock_mem s)
  | reset =>
    exact storesWithin_of_mem rfl
  | install same =>
    exact storesWithin_of_mem (same.mem.trans (by rw [install_frame]))

/-- Every instruction but STORED_DATA that draws nothing, so raises nothing, leaves host memory as it is. -/
theorem exec_mem_of_draws_eq {i : Instr} {s t : State} (h : exec i s = .next t) (other : i ≠ .storedData)
    (quiet : t.draws = s.draws) : t.mem = s.mem := by
  have meaning := exec_meaning i s
  rw [h] at meaning
  cases meaning with
  | registers same =>
    exact same.mem
  | error c same target =>
    rw [raise_draws, same.draws] at quiet
    omega
  | storedData _ => exact absurd rfl other
  | counts same =>
    exact same.mem
  | clen k v same =>
    exact same.mem
  | lens r v same =>
    exact same.mem.trans (by rw [pushLens_frame])
  | endOfBlock =>
    exact afterStep_endBlock_mem s
  | reset =>
    rfl
  | install same =>
    exact same.mem.trans (by rw [install_frame])

/-! ## The storage invariant (rules R38, R39, R56, R80) -/

theorem SameStorage.storageInv {s t : State} (same : SameStorage s t) (h : StorageInv s) : StorageInv t :=
  h.congr same.mem same.clens same.lens same.lt same.dt same.ct same.window same.bc same.res same.wCount

theorem StorageInv.endInflate {s : State} (h : StorageInv s) (st : Status) : StorageInv (endInflate st s) :=
  h.fold.congr rfl rfl rfl rfl rfl rfl rfl rfl rfl rfl

theorem StorageInv.afterStep {s : State} (h : StorageInv s) : StorageInv (afterStep s) := by
  rcases afterStep_cases s with ⟨-, e⟩ | ⟨-, e⟩
  · rw [e]
    exact h.endInflate _
  · rwa [e]

theorem StorageInv.endBlock {s : State} (h : StorageInv s) : StorageInv (endBlock s) :=
  h.congr rfl rfl rfl rfl rfl rfl rfl rfl rfl rfl

theorem StorageInv.suspendSource {s : State} (h : StorageInv s) : StorageInv (suspendSource s) := by
  rcases suspendSource_cases s with e | e
  · rw [e]
    exact h.raise _
  · rw [e]
    exact h.endInflate _

theorem StorageInv.advanceSource {s : State} (h : StorageInv s) : StorageInv (advanceSource s) :=
  h.congr rfl rfl rfl rfl rfl rfl rfl rfl rfl rfl

theorem StorageInv.storeHeldByte {s : State} (h : StorageInv s) (held : 8 ≤ s.bc.toNat) : StorageInv (storeHeldByte s) :=
  ((h.drop held).storeByte (BitVec.ofNat 8 (peek 8 s))).congr rfl rfl rfl rfl rfl rfl rfl rfl rfl rfl

theorem StorageInv.storeSourceByte {s : State} (h : StorageInv s) : StorageInv (storeSourceByte s) :=
  (h.advanceSource.storeByte (sourceByte s)).congr rfl rfl rfl rfl rfl rfl rfl rfl rfl rfl

theorem StorageInv.copyMatchByte {s : State} (h : StorageInv s) : StorageInv (copyMatchByte s) :=
  (h.storeByte (sourceOfMatch s.auxDist.toNat s)).congr rfl rfl rfl rfl rfl rfl rfl rfl rfl rfl

theorem StorageInv.copyStored {s : State} (h : StorageInv s) (k : Nat) : StorageInv (copyStored k s).state :=
  copyStored_ends (fun _ h _ held => h.storeHeldByte held) (fun _ h _ _ => h.storeSourceByte) k h

theorem StorageInv.copyMatch {s : State} (h : StorageInv s) (k : Nat) : StorageInv (copyMatch k s).state :=
  copyMatch_ends (fun _ h _ => h.copyMatchByte) k h

theorem StorageInv.exec {i : Instr} {s t : State} (h : StorageInv s) (next : exec i s = .next t) : StorageInv t := by
  have meaning := exec_meaning i s
  rw [next] at meaning
  cases meaning with
  | registers same =>
    exact same.storageInv h
  | error c same target =>
    exact (same.storageInv h).raise c
  | storedData copy =>
    have copied := h.copyStored s.srem.toNat
    rcases Flow.finish_cases copy with rfl | rfl | rfl
    · exact copied.endBlock.afterStep
    · exact copied.suspendSource
    · exact copied.endInflate _
  | counts same =>
    have h' := same.storageInv h
    exact { h' with clens := rfl }
  | clen k v same =>
    exact same.storageInv (h.setClen k v)
  | lens r v same =>
    exact same.storageInv (h.pushLens r v)
  | endOfBlock =>
    exact h.endBlock.afterStep
  | reset =>
    exact h.resetRegisters
  | install same =>
    exact same.storageInv h.install

theorem StorageInv.enterOperand {s : State} (h : StorageInv s) (q : Position) : StorageInv (enterOperand q s) := by
  cases q with
  | repExtra _ | lenExtra _ _ | distExtra _ _ => exact SameStorage.storageInv {} h
  | _ => exact h

theorem StorageInv.beforeFetch {s : State} (h : StorageInv s) (p : Position) : StorageInv (beforeFetch p s) := by
  cases p with
  | storedHdr => exact h.drop (Nat.mod_le _ _)
  | _ => exact h

end Sys2Proof.Machine

/-! # The whole machine: what a step can do -/

namespace Sys2Proof.Machine

/-! ## All that a step of a running INFLATE can do (rules R310, R380) -/

theorem ctBuild_cases {s t : State} (h : ctBuild s = .next t) :
    (∃ T, build .codes (clensVector s) s.ct = some T ∧ t = { s with ct := T, idx := 0, dphase := .lens }) ∨
      t = raise .badTree { s with ct := unspecifiedTable Config.ccap s } := by
  cases built : build .codes (clensVector s) s.ct with
  | none =>
    rw [ctBuild_of_none built] at h
    exact .inr (Host.Outcome.next.inj h).symm
  | some T =>
    rw [ctBuild_of_some built] at h
    exact .inl ⟨T, rfl, (Host.Outcome.next.inj h).symm⟩

theorem dynBuildDist_cases {s t : State} (h : dynBuildDist s = .next t) :
    (∃ U, build .dists (lensSlice s s.hlit.toNat s.hdist.toNat) s.dt = some U ∧ t = enterBody .dynamic { s with dt := U }) ∨
      t = raise .badTree { s with dt := unspecifiedTable Config.dcap s } := by
  cases built : build .dists (lensSlice s s.hlit.toNat s.hdist.toNat) s.dt with
  | none =>
    rw [dynBuildDist_of_none built] at h
    exact .inr (Host.Outcome.next.inj h).symm
  | some U =>
    rw [dynBuildDist_of_some built] at h
    exact .inl ⟨U, rfl, (Host.Outcome.next.inj h).symm⟩

theorem dynBuild_cases {s t : State} (h : dynBuild s = .next t) :
    t = raise .badTree s ∨ t = raise .badTree { s with lt := unspecifiedTable Config.lcap s } ∨
      ∃ T, build .lens (lensSlice s 0 s.hlit.toNat) s.lt = some T ∧ dynBuildDist { s with lt := T } = .next t := by
  by_cases eob : Ram.read 0 s.lens 256 = 0
  · rw [dynBuild_of_no_endOfBlock eob] at h
    exact .inl (Host.Outcome.next.inj h).symm
  · cases built : build .lens (lensSlice s 0 s.hlit.toNat) s.lt with
    | none =>
      rw [dynBuild_of_none eob built] at h
      exact .inr (.inl (Host.Outcome.next.inj h).symm)
    | some T =>
      rw [dynBuild_of_some eob built] at h
      exact .inr (.inr ⟨T, rfl, h⟩)

theorem emitLiteral_cases {s t : State} (h : emitLiteral s = .next t) :
    (s.dstLen = 0 ∧ t = suspendTarget s) ∨
      (s.dstLen ≠ 0 ∧ t = { storeByte (s.auxLen.setWidth 8) s with litPending := false }) := by
  unfold emitLiteral at h
  split at h
  · exact .inl ⟨‹_›, (Host.Outcome.next.inj h).symm⟩
  · exact .inr ⟨‹_›, (Host.Outcome.next.inj h).symm⟩

theorem closedStep_cases {s t : State} (h : closedStep s = .next t) :
    t = raise .badState s ∨ t = { s with status := .error, inflating := none } ∨ t = afterStep s := by
  unfold closedStep at h
  split at h
  · exact .inl (Host.Outcome.next.inj h).symm
  · exact .inr (.inl (Host.Outcome.next.inj h).symm)
  · exact .inr (.inr (Host.Outcome.next.inj h).symm)

/-- The steps of a running INFLATE, each by its meaning. -/
inductive StreamStep (s : State) : Result → Prop
  | element {p : Position} {r : Result} (h : phase s = .element p) (fetched : (fetch p s).run = r) : StreamStep s r
  | fixedSelect (h : phase s = .fixedSelect) : StreamStep s (.next (enterBody .fixed s))
  | ctBuild {r : Result} (h : phase s = .ctBuild) (build : ctBuild s = r) : StreamStep s r
  | dynBuild {r : Result} (h : phase s = .dynBuild) (build : dynBuild s = r) : StreamStep s r
  | emit {r : Result} (h : phase s = .emit) (emit : emitLiteral s = r) : StreamStep s r
  | copy {r : Result} (h : phase s = .copy) (copy : (copyMatch s.auxLen.toNat s).finish (fun t => { t with sub := .litLen }) = r) :
    StreamStep s r
  | closed {r : Result} (h : phase s = .closed) (closed : closedStep s = r) : StreamStep s r

theorem streamStep_cases (s : State) : StreamStep s (streamStep s) := by
  cases h : phase s with
  | element p => exact .element h (streamStep_of_element h).symm
  | fixedSelect => exact streamStep_of_fixedSelect h ▸ .fixedSelect h
  | ctBuild => exact .ctBuild h (by simp only [streamStep, h])
  | dynBuild => exact .dynBuild h (by simp only [streamStep, h])
  | emit => exact .emit h (by simp only [streamStep, h])
  | copy => exact .copy h (by simp only [streamStep, h, copyStep])
  | closed => exact .closed h (by simp only [streamStep, h])

/-- A fetch that answers a next state: an instruction runs on a state whose bits are dropped, or the INFLATE is suspended. -/
theorem run_fetch_cases {P : Position → State → Prop} {f : Fetched} (ends : f.Ends P) {t : State} (h : f.run = .next t) :
    (∃ q u i w, P q u ∧ readAt q u = .elem i w ∧ exec i (drop w u) = .next t) ∨
      ∃ q u, P q u ∧ readAt q u = .short ∧ u.srcLen = 0 ∧ t = suspendSource u := by
  cases f with
  | instr i v =>
    obtain ⟨q, u, w, rfl, hu, read⟩ := ends
    exact .inl ⟨q, u, i, w, hu, read, h⟩
  | suspended u =>
    obtain ⟨q, hu, short, dry⟩ := ends
    exact .inr ⟨q, u, hu, short, dry, (Host.Outcome.next.inj h).symm⟩
  | stopped f => cases h

/-! ## All that a step between commands can do (rules R61, R62, R93) -/

/-- The instructions that a host write can issue. -/
theorem decodeHostWrite_cases {off val : Word} {i : Instr} (h : decodeHostWrite off val = some i) :
    (i = .reset ∧ off = 0x00#32 ∧ val.extractLsb' 0 8 = 0x01#8) ∨ i = .setDictionary ∨ (∃ f, i = .inflate f) ∨
      (∃ opc, i = .cmdReserved opc) ∨ (∃ half v, i = .setSource half v) ∨ ∃ half v, i = .setTarget half v := by
  unfold decodeHostWrite at h
  split at h
  · rename_i cmd
    obtain rfl := Option.some.inj h
    split
    · exact .inl ⟨rfl, cmd, ‹_›⟩
    · split
      · exact .inr (.inl rfl)
      · split
        · exact .inr (.inr (.inl ⟨_, rfl⟩))
        · exact .inr (.inr (.inr (.inl ⟨_, rfl⟩)))
  · split at h
    · exact .inr (.inr (.inr (.inr (.inl ⟨_, _, (Option.some.inj h).symm⟩))))
    · split at h
      · exact .inr (.inr (.inr (.inr (.inl ⟨_, _, (Option.some.inj h).symm⟩))))
      · split at h
        · exact .inr (.inr (.inr (.inr (.inr ⟨_, _, (Option.some.inj h).symm⟩))))
        · split at h
          · exact .inr (.inr (.inr (.inr (.inr ⟨_, _, (Option.some.inj h).symm⟩))))
          · cases h

/-- The actions of the host, each by its meaning. -/
inductive HostStep (s : State) : HostAction → Result → Prop
  | command {off val : Word} {size : AccessSize} {i : Instr} {r : Result} (access : size = .word)
    (h : decodeHostWrite off val = some i) (exec : exec i s = r) : HostStep s (.write off size val) r
  | plain {off val : Word} {size : AccessSize} : HostStep s (.write off size val) (.next { s with
      dictPtr := if off = 0x18#32 then val else s.dictPtr
      dictLen := if off = 0x1C#32 then val else s.dictLen })
  | read {off : Word} {size : AccessSize} : HostStep s (.read off size) (.next { s with readback := readRegister off s })
  | refused {a : HostAction} : HostStep s a (.refused .registerAccess)
  | poke {addr : Word} {v : Byte} : HostStep s (.poke addr v) (.next { s with mem := Memory.write s.mem addr v })

theorem hostStep_cases (a : HostAction) (s : State) : HostStep s a (hostStep a s) := by
  cases a with
  | write off size val =>
    by_cases ok : registerAccessOk off size = true
    · obtain ⟨aligned, rfl⟩ := (registerAccessOk_iff _ _).mp ok
      cases h : decodeHostWrite off val with
      | some i => exact .command rfl h (hostStep_write_of_some aligned h).symm
      | none =>
        rw [hostStep_write_of_none aligned h, writePlainRegister_eq]
        exact .plain
    · rw [hostStep_write_refused ok]
      exact .refused
  | read off size =>
    by_cases ok : registerAccessOk off size = true
    · obtain ⟨aligned, rfl⟩ := (registerAccessOk_iff _ _).mp ok
      rw [hostStep_read aligned]
      exact .read
    · rw [hostStep_read_refused ok]
      exact .refused
  | poke addr v => exact .poke

/-- All that a step can do: one of the running INFLATE, an action of the host, or nothing. -/
theorem step_cases (s : State) :
    (s.inflating ≠ none ∧ step s = streamStep s) ∨
      (s.inflating = none ∧ ∃ a rest, s.hostQueue = a :: rest ∧ step s = hostStep a { s with hostQueue := rest }) ∨
      (s.inflating = none ∧ s.hostQueue = [] ∧ step s = .next s) := by
  by_cases idle : s.inflating = none
  · cases queue : s.hostQueue with
    | nil => exact .inr (.inr ⟨idle, rfl, step_of_empty_queue idle queue⟩)
    | cons a rest => exact .inr (.inl ⟨idle, a, rest, rfl, step_of_host idle queue⟩)
  · exact .inl ⟨idle, step_of_inflating idle⟩

/-! ## A step of a running INFLATE stores within its target (rules R81, R89) -/

/-- The states that a fetch goes through have the memory and the target it began with. -/
def FetchFrame (s : State) (_ : Position) (u : State) : Prop := u.mem = s.mem ∧ SameTarget s u

theorem enterOperand_mem (q : Position) (s : State) : (enterOperand q s).mem = s.mem := by cases q <;> rfl

theorem sameTarget_enterOperand (q : Position) (s : State) : SameTarget s (enterOperand q s) := by cases q <;> exact {}

theorem SameTarget.trans {s t u : State} (h : SameTarget s t) (h' : SameTarget t u) : SameTarget s u :=
  ⟨h'.dstPtr.trans h.dstPtr, h'.dstLen.trans h.dstLen⟩

theorem fetch_frame (p : Position) (s : State) : (fetch p s).Ends (FetchFrame s) := by
  refine fetch_ends (fun q u h _ _ _ => ?_) (fun q u r k h _ => ?_) ?_
  · obtain ⟨mem, target⟩ := h
    exact ⟨mem, target.trans {}⟩
  · obtain ⟨mem, target⟩ := h
    exact ⟨(enterOperand_mem _ _).trans mem, target.trans (SameTarget.trans {} (sameTarget_enterOperand r (drop k u)))⟩
  · cases p <;> exact ⟨rfl, {}⟩

theorem storesWithin_streamStep {s t : State} (wf : Memory.wf s.mem = true) (h : streamStep s = .next t) : StoresWithin s t := by
  have here := Within.refl wf
  have same (T U V : Ram Entry) : Within s { s with ct := T, lt := U, dt := V } := here.congr rfl {}
  have cases := streamStep_cases s
  rw [h] at cases
  cases cases with
  | @element p _ _ fetched =>
    rcases run_fetch_cases (fetch_frame p s) fetched with ⟨q, u, i, w, ⟨mem, target⟩, -, run⟩ | ⟨q, u, ⟨mem, target⟩, -, -, rfl⟩
    · have fetched : Within s (drop w u) := here.congr mem (target.trans {})
      intro a out
      exact (storesWithin_exec fetched.wf run a (fetched.rest a out)).trans (fetched.read a out)
    · exact (here.congr mem target).stores_suspendSource
  | fixedSelect _ =>
    exact storesWithin_of_mem rfl
  | ctBuild _ build =>
    rcases ctBuild_cases build with ⟨T, -, rfl⟩ | rfl
    · exact storesWithin_of_mem rfl
    · exact (same _ s.lt s.dt).stores_raise _
  | dynBuild _ build =>
    rcases dynBuild_cases build with rfl | rfl | ⟨T, -, dist⟩
    · exact here.stores_raise _
    · exact (same s.ct _ s.dt).stores_raise _
    · rcases dynBuildDist_cases dist with ⟨U, -, rfl⟩ | rfl
      · exact storesWithin_of_mem rfl
      · exact (same s.ct T _).stores_raise _
  | emit _ emit =>
    rcases emitLiteral_cases emit with ⟨-, rfl⟩ | ⟨room, rfl⟩
    · exact storesWithin_of_mem (endInflate_mem _ s)
    · exact (within_storeByte wf room _).stores rfl
  | copy _ copy =>
    have copied := within_copyMatch s.auxLen.toNat wf
    rcases Flow.finish_cases copy with rfl | rfl | rfl
    · exact copied.stores rfl
    · exact copied.stores_suspendSource
    · exact copied.stores (endInflate_mem _ _)
  | closed _ closed =>
    rcases closedStep_cases closed with rfl | rfl | rfl
    · exact here.stores_raise _
    · exact storesWithin_of_mem rfl
    · exact storesWithin_of_mem (afterStep_mem s)

/-! ## Every step keeps the storage in range (rules R38, R39, R56) -/

theorem wf_of_build {m : Mode} {L : List Nat} {old T : Ram Entry} (h : build m L old = some T) :
    Ram.wf m.cap Entry.zero T = true := by
  simp only [build] at h
  split_ifs at h
  cases h
  exact Ram.wf_ofFn _ _ _

theorem wf_unspecifiedTable (size : Nat) (s : State) : Ram.wf size Entry.zero (unspecifiedTable size s) = true :=
  Ram.wf_ofFn _ _ _

theorem StorageInv.withTables {s : State} (h : StorageInv s) {T U V : Ram Entry} (ct : Ram.wf Config.ccap Entry.zero T = true)
    (lt : Ram.wf Config.lcap Entry.zero U = true) (dt : Ram.wf Config.dcap Entry.zero V = true) :
    StorageInv { s with ct := T, lt := U, dt := V } :=
  { h with ct := ct, lt := lt, dt := dt }

theorem fetch_storage {s : State} (h : StorageInv s) (p : Position) : (fetch p s).Ends fun _ => StorageInv :=
  fetch_ends (fun _ _ h _ _ room => h.takeByte room)
    (fun _ _ q _ h read => (h.drop (decodeAt_operand read).2).enterOperand q) (h.beforeFetch p)

theorem StorageInv.streamStep {s t : State} (h : StorageInv s) (next : streamStep s = .next t) : StorageInv t := by
  have cases := streamStep_cases s
  rw [next] at cases
  cases cases with
  | @element p _ _ fetched =>
    rcases run_fetch_cases (fetch_storage h p) fetched with ⟨q, u, i, w, hu, read, run⟩ | ⟨q, u, hu, -, -, rfl⟩
    · exact (hu.drop (decodeAt_elem read).2).exec run
    · exact hu.suspendSource
  | fixedSelect _ =>
    exact h.congr rfl rfl rfl rfl rfl rfl rfl rfl rfl rfl
  | ctBuild _ build =>
    rcases ctBuild_cases build with ⟨T, built, rfl⟩ | rfl
    · exact (h.withTables (wf_of_build built) h.lt h.dt).congr rfl rfl rfl rfl rfl rfl rfl rfl rfl rfl
    · exact (h.withTables (wf_unspecifiedTable _ s) h.lt h.dt).raise _
  | dynBuild _ build =>
    rcases dynBuild_cases build with rfl | rfl | ⟨T, built, dist⟩
    · exact h.raise _
    · exact (h.withTables h.ct (wf_unspecifiedTable _ s) h.dt).raise _
    · rcases dynBuildDist_cases dist with ⟨U, built', rfl⟩ | rfl
      · exact (h.withTables h.ct (wf_of_build built) (wf_of_build built')).congr rfl rfl rfl rfl rfl rfl rfl rfl rfl rfl
      · exact (h.withTables h.ct (wf_of_build built) (wf_unspecifiedTable _ s)).raise _
  | emit _ emit =>
    rcases emitLiteral_cases emit with ⟨-, rfl⟩ | ⟨-, rfl⟩
    · exact h.endInflate _
    · exact (h.storeByte (s.auxLen.setWidth 8)).congr rfl rfl rfl rfl rfl rfl rfl rfl rfl rfl
  | copy _ copy =>
    have copied := h.copyMatch s.auxLen.toNat
    rcases Flow.finish_cases copy with rfl | rfl | rfl
    · exact copied.congr rfl rfl rfl rfl rfl rfl rfl rfl rfl rfl
    · exact copied.suspendSource
    · exact copied.endInflate _
  | closed _ closed =>
    rcases closedStep_cases closed with rfl | rfl | rfl
    · exact h.raise _
    · exact h.congr rfl rfl rfl rfl rfl rfl rfl rfl rfl rfl
    · exact h.afterStep

theorem StorageInv.hostStep {a : HostAction} {s t : State} (h : StorageInv s) (next : hostStep a s = .next t) : StorageInv t := by
  have cases := hostStep_cases a s
  rw [next] at cases
  cases cases with
  | command _ _ exec => exact h.exec exec
  | plain => exact h.congr rfl rfl rfl rfl rfl rfl rfl rfl rfl rfl
  | read => exact h.congr rfl rfl rfl rfl rfl rfl rfl rfl rfl rfl
  | poke => exact { h with mem := Memory.wf_write h.mem _ _ }

theorem StorageInv.step {s t : State} (h : StorageInv s) (next : step s = .next t) : StorageInv t := by
  rcases step_cases s with ⟨-, e⟩ | ⟨-, a, rest, -, e⟩ | ⟨-, -, e⟩
  · exact h.streamStep (e.symm.trans next)
  · exact (h.congr (t := { s with hostQueue := rest }) rfl rfl rfl rfl rfl rfl rfl rfl rfl rfl).hostStep (e.symm.trans next)
  · obtain rfl := Host.Outcome.next.inj (e.symm.trans next)
    exact h

/-! ## BAD is left by RESET only (rules R497, R613, R614) -/

/-- What a state in BAD keeps: the block state, its code, no INFLATE, and host memory. -/
structure StaysBad (s t : State) : Prop where
  bstate    : t.bstate = .bad
  err       : t.err = s.err
  inflating : t.inflating = none
  mem       : t.mem = s.mem

/-- A command other than RESET does nothing to a core in BAD. -/
theorem staysBad_exec {off val : Word} {i : Instr} {s t : State} (bad : s.bstate = .bad) (idle : s.inflating = none)
    (h : decodeHostWrite off val = some i) (noReset : i ≠ .reset) (next : exec i s = .next t) : StaysBad s t := by
  rcases decodeHostWrite_cases h with ⟨rfl, -⟩ | rfl | ⟨f, rfl⟩ | ⟨opc, rfl⟩ | ⟨half, v, rfl⟩ | ⟨half, v, rfl⟩
  · exact absurd rfl noReset
  · obtain rfl := Host.Outcome.next.inj ((execSetDictionary_of_bad bad).symm.trans next)
    exact ⟨bad, rfl, idle, rfl⟩
  · obtain rfl := Host.Outcome.next.inj ((execInflate_of_bad f bad).symm.trans next)
    exact ⟨bad, rfl, idle, rfl⟩
  · obtain rfl := Host.Outcome.next.inj next
    exact ⟨bad, rfl, idle, rfl⟩
  · cases half <;> (obtain rfl := Host.Outcome.next.inj next; exact ⟨bad, rfl, idle, rfl⟩)
  · cases half <;> (obtain rfl := Host.Outcome.next.inj next; exact ⟨bad, rfl, idle, rfl⟩)

end Sys2Proof.Machine

namespace Sys2Proof

open Machine

/-- Settles O49: of every kind of meaning, none touches the host's registers. -/
theorem noInstructionTouchesTheHostsRegisters : Obligations.NoInstructionTouchesTheHostsRegisters := by
  intro i s t h
  obtain ⟨queue, ptr, len, readback⟩ := hostFrame_exec h
  exact ⟨queue, ptr, len, readback⟩

/-- Settles O51: what an error draws in host memory is the target span. -/
theorem errorKeepsProducedBytes : Obligations.ErrorKeepsProducedBytes := fun c _ _ wf out => read_raise wf c out

/-- Settles O52: of the host's actions only a command can change the block state, and in BAD only RESET does. -/
theorem badIsStickyUntilReset : Obligations.BadIsStickyUntilReset := by
  intro s t bad idle next noReset
  rcases step_cases s with ⟨running, -⟩ | ⟨-, a, rest, queue, e⟩ | ⟨-, -, e⟩
  · exact absurd idle running
  · have cases := hostStep_cases a { s with hostQueue := rest }
    rw [← e, next] at cases
    cases cases with
    | @command off val size i _ access h exec =>
      subst access
      have other : i ≠ .reset := by
        rintro rfl
        obtain ⟨-, rfl, opc⟩ | h | ⟨_, h⟩ | ⟨_, h⟩ | ⟨_, _, h⟩ | ⟨_, _, h⟩ := decodeHostWrite_cases h
        · exact noReset val rest queue opc
        all_goals cases h
      obtain ⟨bstate, err, inflating, mem⟩ := staysBad_exec (s := { s with hostQueue := rest }) bad idle h other exec
      exact ⟨bstate, err, inflating, fun _ => mem⟩
    | plain => exact ⟨bad, rfl, idle, fun _ => rfl⟩
    | read => exact ⟨bad, rfl, idle, fun _ => rfl⟩
    | poke => exact ⟨bad, rfl, idle, fun noPoke => absurd queue (noPoke _ _ _)⟩
  · obtain rfl := Host.Outcome.next.inj (e.symm.trans next)
    exact ⟨bad, rfl, idle, fun _ => rfl⟩

/-- Settles O53: the stores of STORED_DATA and the draws of an error lie in the target; the other kinds of meaning leave host memory. -/
theorem instructionsStoreOnlyInTheTarget : Obligations.InstructionsStoreOnlyInTheTarget := fun _ _ _ wf h =>
  ⟨storesWithin_exec wf h, fun other quiet _ => by rw [exec_mem_of_draws_eq h other quiet]⟩

/-- Settles O54: the fetch changes neither memory nor target, and what then runs stores within the target. -/
theorem runningInflateStoresOnlyInTheTarget : Obligations.RunningInflateStoresOnlyInTheTarget := by
  intro s t a wf running h out
  rw [step_of_inflating running] at h
  exact storesWithin_streamStep wf h a out

/-- Settles O57: each shared operation keeps the storage in range, and a drop never takes more bits than are held. -/
theorem stepKeepsTheStorageInRange : Obligations.StepKeepsTheStorageInRange := fun _ _ h next => h.step next

end Sys2Proof

/-! # Every bit pattern is an element or raises an error (rules R135, R246): what one read answers under the invariant -/

namespace Sys2Proof.Machine

/-! ## The entries that the tables select (rules R246, R248 to R252) -/

theorem codeLengthEntry_symEntry {i k : Nat} (hi : i < 19) (lo : 1 ≤ k) (hk : k ≤ 15) : codeLengthEntry (symEntry .codes i k) := by
  have info : (symEntry .codes i k).info.toNat = i := Nat.mod_eq_of_lt (by omega)
  rw [codeLengthEntry, symEntry_length_toNat hk, info]
  omega

theorem litLenEntry_symEntry {i k : Nat} (lo : 1 ≤ k) (hk : k ≤ 15) : litLenEntry (symEntry .lens i k) := by
  rw [litLenEntry, symEntry_length_toNat hk]
  refine ⟨lo, hk, ?_⟩
  by_cases length : 257 ≤ i ∧ i < 286
  · obtain ⟨info, tag⟩ := symEntry_length (k := k) length.1 length.2
    rw [info, tag, lengthSymbol_lbase length.1 length.2]
    exact .inr (.inr (.inr rfl))
  · unfold symEntry
    dsimp only
    split_ifs
    · exact .inl rfl
    · exact .inr (.inl rfl)
    · omega
    · exact .inr (.inr (.inl rfl))

theorem distEntry_symEntry {i k : Nat} (lo : 1 ≤ k) (hk : k ≤ 15) : distEntry (symEntry .dists i k) := by
  rw [distEntry, symEntry_length_toNat hk]
  refine ⟨lo, hk, ?_⟩
  by_cases distance : i < 30
  · obtain ⟨info, tag⟩ := symEntry_distance (k := k) distance
    rw [info, tag, distanceSymbol_dbase distance]
    exact .inr rfl
  · rw [symEntry, if_neg distance]
    exact .inl rfl

theorem codeLengthEntry_filler : codeLengthEntry fillerEntry := ⟨by decide, by decide, by decide⟩

theorem litLenEntry_filler : litLenEntry fillerEntry := ⟨by decide, by decide, .inr (.inr (.inl rfl))⟩

theorem distEntry_filler : distEntry fillerEntry := ⟨by decide, by decide, .inl rfl⟩

/-- A built table selects entries of a kind, where the filler and the entries of its symbols are of that kind. -/
theorem selects_of_build {ok : Entry → Prop} {m : Mode} {L : List Nat} {old T : Ram Entry} (h : build m L old = some T)
    (short : ∀ x ∈ L, x ≤ 15) (filler : ok fillerEntry)
    (symbol : ∀ i k, i < L.length → 1 ≤ k → k ≤ 15 → ok (symEntry m i k)) : selects ok T m.root := by
  intro v
  rcases lookup_total short h v with e | ⟨c, hc, e⟩
  · rw [e]
    exact filler
  · have le := mem_symCodes_len_le short hc
    obtain ⟨i, hi, coded, rfl⟩ := mem_symCodes.mp hc
    rw [e]
    exact symbol i _ hi (Nat.one_le_iff_ne_zero.mpr coded) le

theorem clensVector_le (s : State) : ∀ x ∈ clensVector s, x ≤ 15 := by
  intro x hx
  obtain ⟨i, -, rfl⟩ := List.mem_map.mp hx
  omega

theorem lensSlice_le (s : State) (lo n : Nat) : ∀ x ∈ lensSlice s lo n, x ≤ 15 := by
  intro x hx
  obtain ⟨i, -, rfl⟩ := List.mem_map.mp hx
  omega

theorem selects_ct_of_build {s : State} {old T : Ram Entry} (h : build .codes (clensVector s) old = some T) :
    selects codeLengthEntry T Config.croot := by
  have length : (clensVector s).length = 19 := by rw [clensVector, List.length_map, List.length_range]; rfl
  exact selects_of_build h (clensVector_le s) codeLengthEntry_filler fun i k hi lo hk =>
    codeLengthEntry_symEntry (length ▸ hi) lo hk

theorem selects_lt_of_build {s : State} {lo n : Nat} {old T : Ram Entry} (h : build .lens (lensSlice s lo n) old = some T) :
    selects litLenEntry T Config.lroot :=
  selects_of_build h (lensSlice_le s lo n) litLenEntry_filler fun _ _ _ => litLenEntry_symEntry

theorem selects_dt_of_build {s : State} {lo n : Nat} {old T : Ram Entry} (h : build .dists (lensSlice s lo n) old = some T) :
    selects distEntry T Config.droot :=
  selects_of_build h (lensSlice_le s lo n) distEntry_filler fun _ _ _ => distEntry_symEntry

theorem litLenEntry_ltFixed (v : Nat) : litLenEntry (lookup ltFixed Config.lroot v) := by
  obtain ⟨s, hs, begins⟩ := exists_fixedLLCode v
  rw [lookup_ltFixed hs begins]
  exact litLenEntry_symEntry (fixedLLCode_length_pos s) (fixedLLCode_length_le s)

theorem distEntry_dtFixed (v : Nat) : distEntry (lookup dtFixed Config.droot v) := by
  obtain ⟨s, hs, begins⟩ := exists_fixedDCode v
  rw [lookup_dtFixed hs begins]
  exact distEntry_symEntry (by omega) (by omega)

/-- Whichever tables a block body reads, they select literal/length entries. -/
theorem DecodingInv.selects_lt {s : State} (h : DecodingInv s) (v : Nat) :
    litLenEntry (lookup (codebook s).lt Config.lroot v) := by
  cases tsel : s.tsel with
  | fixed =>
    simp only [codebook, tsel]
    exact litLenEntry_ltFixed v
  | dynamic =>
    simp only [codebook, tsel]
    exact h.lt tsel v

/-- Whichever tables a block body reads, they select distance entries. -/
theorem DecodingInv.selects_dt {s : State} (h : DecodingInv s) (v : Nat) :
    distEntry (lookup (codebook s).dt Config.droot v) := by
  cases tsel : s.tsel with
  | fixed =>
    simp only [codebook, tsel]
    exact distEntry_dtFixed v
  | dynamic =>
    simp only [codebook, tsel]
    exact h.dt tsel v

end Sys2Proof.Machine

namespace Sys2Proof

open Machine

/-! ## What one read answers -/

/-- The least width of what stands at a position, where the bound of rule R509 counts on one. -/
def Position.least : Position → Nat
  | .storedData | .lenExtra _ _ | .distExtra _ _ => 0
  | _ => 1

/-- The greatest width of one read at a position (rule R209). -/
def Position.most : Position → Nat
  | .storedHdr => 32
  | _ => 15

/-- With `n` bits held, a read finds something at least `lo` wide, or lacks bits of the `hi` it may need; it rejects nothing. -/
def Decoded.Answers (lo hi n : Nat) : Decoded → Prop
  | .elem _ w => lo ≤ w
  | .operand _ w => lo ≤ w
  | .short => n < hi
  | .reject _ => False

theorem found_answers {o : Option Instr} {w lo hi n : Nat} (le : lo ≤ w) (some : ∃ i, o = some i) : (found o w).Answers lo hi n := by
  obtain ⟨i, rfl⟩ := some
  exact le

theorem decodeClsym_answers {T : Codebook} {v n : Nat} (h : codeLengthEntry (lookup T.ct Config.croot v)) :
    (decodeClsym T v n).Answers 1 15 n := by
  obtain ⟨lo, hi, info⟩ := h
  unfold decodeClsym
  dsimp only
  split
  · exact Nat.lt_of_lt_of_le ‹_› hi
  · split
    · obtain ⟨i, some, -⟩ := clInstr_of_le ‹_›
      exact found_answers lo ⟨i, some⟩
    · exact lo

theorem decodeRepExtra_answers {sym v n : Nat} (lo : 16 ≤ sym) (hi : sym ≤ 18) : (decodeRepExtra sym v n).Answers 1 15 n := by
  have answers (w : Nat) (pos : 1 ≤ w) (le : w ≤ 15) (i : Instr) :
      (if n < w then Decoded.short else .elem i w).Answers 1 15 n := by
    split
    · exact Nat.lt_of_lt_of_le ‹_› le
    · exact pos
  obtain rfl | rfl | rfl : sym = 16 ∨ sym = 17 ∨ sym = 18 := by omega
  · exact answers 2 (by omega) (by omega) _
  · exact answers 3 (by omega) (by omega) _
  · exact answers 7 (by omega) (by omega) _

theorem decodeLL_answers {T : Codebook} {v n : Nat} (h : litLenEntry (lookup T.lt Config.lroot v)) :
    (decodeLL T v n).Answers 1 15 n := by
  generalize look : lookup T.lt Config.lroot v = e at h
  obtain ⟨lo, hi, kind⟩ := h
  rcases Nat.lt_or_ge n e.length.toNat with few | held
  · rw [decodeLL, look, if_pos few]
    exact few.trans_le hi
  · rcases kind with tag | tag | tag | some
    · rw [decodeLL_of_literal look held tag]
      exact lo
    · rw [decodeLL_of_endOfBlock look held tag]
      exact lo
    · rw [decodeLL_of_invalid look held tag]
      exact lo
    · obtain ⟨sym, hs⟩ := Option.isSome_iff_exists.mp some
      obtain ⟨ge, lt, -⟩ := lengthSymbol_eq_some hs
      obtain ⟨i, found, -⟩ := lengthInstr_of_lt ge lt 0
      rw [decodeLL_of_length look held hs]
      split
      · exact found_answers lo ⟨i, found⟩
      · exact lo

theorem decodeDist_answers {T : Codebook} {v n : Nat} (h : distEntry (lookup T.dt Config.droot v)) :
    (decodeDist T v n).Answers 1 15 n := by
  generalize look : lookup T.dt Config.droot v = e at h
  obtain ⟨lo, hi, kind⟩ := h
  rcases Nat.lt_or_ge n e.length.toNat with few | held
  · rw [decodeDist, look, if_pos few]
    exact few.trans_le hi
  · rcases kind with tag | some
    · rw [decodeDist_of_invalid look held tag]
      exact lo
    · obtain ⟨sym, hs⟩ := Option.isSome_iff_exists.mp some
      obtain ⟨i, found, -⟩ := distanceInstr_of_lt (distanceSymbol_eq_some hs).1 0
      rw [decodeDist_of_distance look held hs]
      split
      · exact found_answers lo ⟨i, found⟩
      · exact lo

theorem decodeLenExtra_answers {b e v n : Nat} (some : (lengthSymbol b e).isSome = true) :
    (decodeLenExtra b e v n).Answers 0 15 n := by
  obtain ⟨sym, hs⟩ := Option.isSome_iff_exists.mp some
  obtain ⟨lo, hi, -, extra⟩ := lengthSymbol_eq_some hs
  rcases Nat.lt_or_ge n e with few | held
  · have le := lextra_le sym
    rw [decodeLenExtra, if_pos few]
    exact few.trans_le (by omega)
  · obtain ⟨i, found, -⟩ := lengthInstr_of_lt lo hi (v % 2 ^ e)
    rw [decodeLenExtra_of_symbol hs held]
    exact found_answers (Nat.zero_le _) ⟨i, found⟩

theorem decodeDistExtra_answers {b e v n : Nat} (some : (distanceSymbol b e).isSome = true) :
    (decodeDistExtra b e v n).Answers 0 15 n := by
  obtain ⟨sym, hs⟩ := Option.isSome_iff_exists.mp some
  obtain ⟨hi, -, extra⟩ := distanceSymbol_eq_some hs
  rcases Nat.lt_or_ge n e with few | held
  · have le := dextra_le sym
    rw [decodeDistExtra, if_pos few]
    exact few.trans_le (by omega)
  · obtain ⟨i, found, -⟩ := distanceInstr_of_lt hi (v % 2 ^ e)
    rw [decodeDistExtra_of_symbol hs held]
    exact found_answers (Nat.zero_le _) ⟨i, found⟩

theorem decodeHdr_answers (v n : Nat) : (decodeHdr v n).Answers 1 15 n := by
  unfold decodeHdr
  split
  · exact Nat.lt_of_lt_of_le ‹_› (by omega)
  · dsimp only
    split <;> exact Nat.le_add_left 1 2

end Sys2Proof

namespace Sys2Proof.Machine

/-- Under the invariant a read at the position that the registers expect answers. -/
theorem readAt_answers {s : State} {p : Position} (h : Inv s) (expects : s.Expects p) :
    (readAt p s).Answers p.least p.most s.bc.toNat := by
  unfold readAt
  cases p with
  | hdr => exact decodeHdr_answers _ _
  | storedHdr =>
    rw [decodeAt, decodeStoredHdr]
    split
    · assumption
    · exact Nat.le_add_left 1 31
  | storedData => exact Nat.zero_le _
  | dynHdr =>
    rw [decodeAt, decodeDynHdr]
    split
    · exact Nat.lt_of_lt_of_le ‹_› (by decide)
    · exact Nat.le_add_left 1 13
  | cll =>
    rw [decodeAt, decodeCll]
    split
    · exact Nat.lt_of_lt_of_le ‹_› (by decide)
    · exact Nat.le_add_left 1 2
  | clsym =>
    obtain ⟨dynamic, lens, -⟩ := expects
    exact decodeClsym_answers ((h.dynamic dynamic).ct (.inl lens) _)
  | repExtra sym =>
    obtain ⟨dynamic, rep, rfl⟩ := expects
    obtain ⟨lo, hi⟩ := (h.dynamic dynamic).rep rep
    exact decodeRepExtra_answers lo hi
  | ll => exact decodeLL_answers ((h.decoding expects.1).selects_lt _)
  | lenExtra b e =>
    obtain ⟨decoding, sub, rfl, rfl⟩ := expects
    exact decodeLenExtra_answers ((h.decoding decoding).lenExtra sub)
  | dist => exact decodeDist_answers ((h.decoding expects.1).selects_dt _)
  | distExtra b e =>
    obtain ⟨decoding, sub, rfl, rfl⟩ := expects
    exact decodeDistExtra_answers ((h.decoding decoding).distExtra sub)

end Sys2Proof.Machine

/-! # The invariant of the whole machine along the shared operations, and along a fetch -/

namespace Sys2Proof.Machine

/-! ## What the invariant reads -/

/-- Two states with the same block state, and the same registers and tables of a dynamic header and of a block body. -/
structure SameControl (s t : State) : Prop where
  bstate     : t.bstate = s.bstate := by rfl
  dphase     : t.dphase = s.dphase := by rfl
  hlit       : t.hlit = s.hlit := by rfl
  hdist      : t.hdist = s.hdist := by rfl
  hclen      : t.hclen = s.hclen := by rfl
  idx        : t.idx = s.idx := by rfl
  dsym       : t.dsym = s.dsym := by rfl
  ct         : t.ct = s.ct := by rfl
  tsel       : t.tsel = s.tsel := by rfl
  lt         : t.lt = s.lt := by rfl
  dt         : t.dt = s.dt := by rfl
  sub        : t.sub = s.sub := by rfl
  litPending : t.litPending = s.litPending := by rfl
  auxLen     : t.auxLen = s.auxLen := by rfl
  auxExtra   : t.auxExtra = s.auxExtra := by rfl
  auxDist    : t.auxDist = s.auxDist := by rfl

theorem DynamicInv.congr {s t : State} (h : DynamicInv s) (same : SameControl s t) : DynamicInv t where
  hlit := by rw [same.dphase, same.hlit]; exact h.hlit
  hdist := by rw [same.dphase, same.hdist]; exact h.hdist
  hclen := by rw [same.dphase, same.hclen]; exact h.hclen
  clens := by rw [same.dphase, same.idx, same.hclen]; exact h.clens
  lens := by rw [same.dphase, same.idx, vectorLength, same.hlit, same.hdist]; exact h.lens
  ct := by rw [same.dphase, same.ct]; exact h.ct
  rep := by rw [same.dphase, same.dsym]; exact h.rep

/-- The history may grow, and what lies further back than 32768 bytes may be lost. -/
theorem DecodingInv.congr {s t : State} (h : DecodingInv s) (same : SameControl s t)
    (kept : min 32768 (history s) ≤ history t) : DecodingInv t where
  lt := by rw [same.tsel, same.lt]; exact h.lt
  dt := by rw [same.tsel, same.dt]; exact h.dt
  literal := by rw [same.sub, same.litPending, same.auxLen]; exact h.literal
  lenExtra := by rw [same.sub, same.auxLen, same.auxExtra]; exact h.lenExtra
  length := by rw [same.sub, same.auxLen]; exact h.length
  distExtra := by rw [same.sub, same.auxDist, same.auxExtra]; exact h.distExtra
  copyLen := by rw [same.sub, same.auxLen]; exact h.copyLen
  copyDist := by
    rw [same.sub, same.auxDist]
    intro copy
    obtain ⟨lo, hi, reached⟩ := h.copyDist copy
    exact ⟨lo, hi, (Nat.le_min.mpr ⟨hi, reached⟩).trans kept⟩

/-- A state of the same control meets the invariant, where its storage, its fill, its spans and its history do. -/
theorem Inv.congr {s t : State} (h : Inv s) (same : SameControl s t) (storage : StorageInv t)
    (slow : s.bstate ≠ .bad → t.bc.toNat ≤ 32)
    (fresh : t.consumedAny = false → s.consumedAny = false ∧ t.bc.toNat ≤ s.bc.toNat)
    (running : t.inflating ≠ none → s.bstate.runs = true ∧ produced t + t.dstLen.toNat < 2 ^ 32)
    (kept : min 32768 (history s) ≤ history t) : Inv t where
  storage := storage
  slow := by rw [same.bstate]; exact slow
  running r := by rw [same.bstate]; exact (running r).1
  room r := (running r).2
  fresh none := by
    obtain ⟨none', le⟩ := fresh none
    rw [same.bstate]
    refine (h.fresh none').imp_right (Or.imp_right fun header => ⟨header.1, ?_⟩)
    have zero : s.bc.toNat = 0 := by rw [header.2]; rfl
    exact BitVec.eq_of_toNat_eq (by rw [BitVec.ofNat_eq_ofNat, BitVec.toNat_zero]; omega)
  dynamic d := (h.dynamic (same.bstate ▸ d)).congr same
  decoding d := (h.decoding (same.bstate ▸ d)).congr same kept

/-! ## The ends of a command -/

theorem Inv.raise {s : State} (h : StorageInv s) (c : ErrCode) : Inv (raise c s) where
  storage := h.raise c
  slow live := absurd (raise_bstate c s) live
  running r := absurd (raise_inflating c s) r
  room r := absurd (raise_inflating c s) r
  fresh _ := .inr (.inl (raise_bstate c s))
  dynamic d := nomatch (raise_bstate c s).symm.trans d
  decoding d := nomatch (raise_bstate c s).symm.trans d

theorem history_endInflate (st : Status) (s : State) : min 32768 (history s) ≤ history (endInflate st s) := by
  have ended : history (endInflate st s) = min 32768 (s.wCount.toNat + produced s) := by
    rw [endInflate_frame, history, if_pos rfl]
    exact fold_wCount_toNat s
  rw [ended, history, available]
  split <;> omega

theorem Inv.endInflate {s : State} (h : Inv s) (st : Status) : Inv (endInflate st s) := by
  have frame := endInflate_frame st s
  refine h.congr ?_ (h.storage.endInflate st) (fun live => ?_) (fun none => ?_) (fun r => ?_) (history_endInflate st s)
  · rw [frame]
    exact {}
  · rw [frame]
    exact h.slow live
  · rw [frame] at none ⊢
    exact ⟨none, le_rfl⟩
  · exact absurd (by rw [frame]) r

theorem Inv.suspendSource {s : State} (h : Inv s) : Inv (suspendSource s) := by
  rcases suspendSource_cases s with e | e
  · rw [e]
    exact .raise h.storage _
  · rw [e]
    exact h.endInflate _

/-! ## The reservoir (rules R202, R206, R209) -/

theorem history_congr {s t : State} (inflating : t.inflating = s.inflating) (wCount : t.wCount = s.wCount)
    (produced : produced t = produced s) : history t = history s := by
  rw [history, history, available, available, inflating, wCount, produced]

theorem Inv.takeByte {s : State} (h : Inv s) (room : s.bc.toNat + 8 ≤ 32) : Inv (takeByte s) := by
  have fill := takeByte_bc_toNat (s := s) (by omega)
  refine h.congr {} (h.storage.takeByte (by omega)) (fun _ => ?_) (fun none => ?_) (fun r => ⟨h.running r, h.room r⟩) ?_
  · omega
  · cases none
  · rw [history_congr (s := s) (t := Machine.takeByte s) rfl rfl rfl]
    exact min_le_right _ _

theorem Inv.drop {n : Nat} {s : State} (h : Inv s) (le : n ≤ s.bc.toNat) : Inv (drop n s) := by
  have fill := drop_bc_toNat le
  refine h.congr {} (h.storage.drop le) (fun live => ?_) (fun none => ⟨none, ?_⟩) (fun r => ⟨h.running r, h.room r⟩) ?_
  · have := h.slow live
    omega
  · omega
  · rw [history_congr (s := s) (t := Machine.drop n s) rfl rfl rfl]
    exact min_le_right _ _

theorem Inv.beforeFetch {s : State} (h : Inv s) (p : Position) : Inv (beforeFetch p s) := by
  cases p with
  | storedHdr => exact h.drop (Nat.mod_le _ _)
  | _ => exact h

/-! ## A running INFLATE -/

/-- What the invariant asks of the reservoir and the spans while an INFLATE runs, once a byte is taken. -/
structure Live (s : State) : Prop where
  slow    : s.bc.toNat ≤ 32
  running : s.inflating ≠ none
  room    : produced s + s.dstLen.toNat < 2 ^ 32
  taken   : s.consumedAny = true

/-- Two states with as many bits held, the same spans, and the same window. -/
structure SameLedger (s t : State) : Prop where
  bc          : t.bc = s.bc := by rfl
  consumedAny : t.consumedAny = s.consumedAny := by rfl
  inflating   : t.inflating = s.inflating := by rfl
  srcLen      : t.srcLen = s.srcLen := by rfl
  dstPtr      : t.dstPtr = s.dstPtr := by rfl
  dstLen      : t.dstLen = s.dstLen := by rfl
  tbegin      : t.tbegin = s.tbegin := by rfl
  wCount      : t.wCount = s.wCount := by rfl

theorem SameLedger.produced {s t : State} (same : SameLedger s t) : produced t = produced s := by
  rw [Machine.produced, Machine.produced, same.dstPtr, same.tbegin]

theorem SameLedger.workLeft {s t : State} (same : SameLedger s t) : workLeft t = workLeft s := by
  rw [Machine.workLeft, Machine.workLeft, same.bc, same.srcLen, same.dstLen]

theorem SameLedger.history {s t : State} (same : SameLedger s t) : history t = history s :=
  history_congr same.inflating same.wCount same.produced

theorem Live.congr {s t : State} (h : Live s) (same : SameLedger s t) : Live t where
  slow := by rw [same.bc]; exact h.slow
  running := by rw [same.inflating]; exact h.running
  room := by rw [same.produced, same.dstLen]; exact h.room
  taken := by rw [same.consumedAny]; exact h.taken

theorem Inv.of_live {s : State} (live : Live s) (storage : StorageInv s) (runs : s.bstate.runs = true)
    (dynamic : s.bstate = .dynamic → DynamicInv s) (decoding : s.bstate = .decoding → DecodingInv s) : Inv s where
  storage := storage
  slow _ := live.slow
  running _ := runs
  room _ := live.room
  fresh none := nomatch none.symm.trans live.taken
  dynamic := dynamic
  decoding := decoding

theorem Inv.not_bad {s : State} (h : Inv s) (running : s.inflating ≠ none) : s.bstate ≠ .bad := by
  intro bad
  have runs := h.running running
  rw [bad] at runs
  cases runs

/-- Before a byte is taken a running INFLATE holds no bits, and a block header comes next. -/
theorem Inv.taken_or_fresh {s : State} (h : Inv s) (running : s.inflating ≠ none) :
    s.consumedAny = true ∨ s.bstate = .needHeader ∧ s.bc = 0 := by
  cases consumed : s.consumedAny with
  | true => exact .inl rfl
  | false =>
    rcases h.fresh consumed with uninit | bad | header
    · have runs := h.running running
      rw [uninit] at runs
      cases runs
    · exact absurd bad (h.not_bad running)
    · exact .inr header

theorem Inv.live_of_taken {s : State} (h : Inv s) (running : s.inflating ≠ none) (taken : s.consumedAny = true) : Live s :=
  ⟨h.slow (h.not_bad running), running, h.room running, taken⟩

theorem Inv.live {s : State} (h : Inv s) (running : s.inflating ≠ none) (begun : s.bstate ≠ .needHeader) : Live s :=
  h.live_of_taken running ((h.taken_or_fresh running).resolve_right fun fresh => begun fresh.1)

theorem State.Expects.eq_hdr {s : State} {p : Position} (h : s.Expects p) (header : s.bstate = .needHeader) : p = .hdr := by
  have next : phase s = .element .hdr := phase_of_expects (p := .hdr) header
  exact Phase.element.inj ((phase_of_expects h).symm.trans next)

/-! ## The registers of a dynamic header, by its phase (rule R41) -/

/-- The counts of a dynamic header are legal (rule R341). -/
structure LegalCounts (s : State) : Prop where
  hlit  : 257 ≤ s.hlit.toNat ∧ s.hlit.toNat ≤ 286
  hdist : 1 ≤ s.hdist.toNat ∧ s.hdist.toNat ≤ 30
  hclen : 4 ≤ s.hclen.toNat ∧ s.hclen.toNat ≤ 19

theorem DynamicInv.legalCounts {s : State} (h : DynamicInv s) (begun : s.dphase ≠ .counts) : LegalCounts s :=
  ⟨h.hlit begun, h.hdist begun, h.hclen begun⟩

theorem LegalCounts.congr {s t : State} (h : LegalCounts s) (hlit : t.hlit = s.hlit) (hdist : t.hdist = s.hdist)
    (hclen : t.hclen = s.hclen) : LegalCounts t :=
  ⟨by rw [hlit]; exact h.hlit, by rw [hdist]; exact h.hdist, by rw [hclen]; exact h.hclen⟩

theorem LegalCounts.vectorLength_bounds {s : State} (h : LegalCounts s) : 258 ≤ vectorLength s ∧ vectorLength s ≤ 316 := by
  obtain ⟨hlit, hdist, -⟩ := h
  rw [vectorLength]
  omega

theorem DynamicInv.of_counts {s : State} (counts : s.dphase = .counts) : DynamicInv s where
  hlit := by simp [counts]
  hdist := by simp [counts]
  hclen := by simp [counts]
  clens := by simp [counts]
  lens := by simp [counts]
  ct := by simp [counts]
  rep := by simp [counts]

section Header

variable {s : State} (legal : LegalCounts s)

include legal

theorem DynamicInv.of_clens (clens : s.dphase = .clens) (idx : s.idx.toNat ≤ s.hclen.toNat) : DynamicInv s where
  hlit _ := legal.hlit
  hdist _ := legal.hdist
  hclen _ := legal.hclen
  clens _ := idx
  lens := by simp [clens]
  ct := by simp [clens]
  rep := by simp [clens]

theorem DynamicInv.of_lens (lens : s.dphase = .lens) (idx : s.idx.toNat ≤ vectorLength s)
    (ct : selects codeLengthEntry s.ct Config.croot) : DynamicInv s where
  hlit _ := legal.hlit
  hdist _ := legal.hdist
  hclen _ := legal.hclen
  clens := by simp [lens]
  lens _ := idx
  ct _ := ct
  rep := by simp [lens]

theorem DynamicInv.of_rep (rep : s.dphase = .rep) (idx : s.idx.toNat ≤ vectorLength s)
    (ct : selects codeLengthEntry s.ct Config.croot) (dsym : 16 ≤ s.dsym.toNat ∧ s.dsym.toNat ≤ 18) : DynamicInv s where
  hlit _ := legal.hlit
  hdist _ := legal.hdist
  hclen _ := legal.hclen
  clens := by simp [rep]
  lens _ := idx
  ct _ := ct
  rep _ := dsym

end Header

/-! ## The registers of a block body, by what is expected next (rules R44 to R48) -/

section Body

variable {s : State} (lt : s.tsel = .dynamic → selects litLenEntry s.lt Config.lroot)
  (dt : s.tsel = .dynamic → selects distEntry s.dt Config.droot)

include lt dt

theorem DecodingInv.of_litLen (sub : s.sub = .litLen) (literal : s.litPending = true → s.auxLen.toNat ≤ 255) : DecodingInv s where
  lt := lt
  dt := dt
  literal _ := literal
  lenExtra := by simp [sub]
  length := by simp [sub]
  distExtra := by simp [sub]
  copyLen := by simp [sub]
  copyDist := by simp [sub]

theorem DecodingInv.of_lenExtra (sub : s.sub = .lenExtra)
    (symbol : (lengthSymbol s.auxLen.toNat s.auxExtra.toNat).isSome = true) : DecodingInv s where
  lt := lt
  dt := dt
  literal := by simp [sub]
  lenExtra _ := symbol
  length := by simp [sub]
  distExtra := by simp [sub]
  copyLen := by simp [sub]
  copyDist := by simp [sub]

theorem DecodingInv.of_distSym (sub : s.sub = .distSym) (length : 3 ≤ s.auxLen.toNat ∧ s.auxLen.toNat ≤ 258) : DecodingInv s where
  lt := lt
  dt := dt
  literal := by simp [sub]
  lenExtra := by simp [sub]
  length _ := length
  distExtra := by simp [sub]
  copyLen := by simp [sub]
  copyDist := by simp [sub]

theorem DecodingInv.of_distExtra (sub : s.sub = .distExtra) (length : 3 ≤ s.auxLen.toNat ∧ s.auxLen.toNat ≤ 258)
    (symbol : (distanceSymbol s.auxDist.toNat s.auxExtra.toNat).isSome = true) : DecodingInv s where
  lt := lt
  dt := dt
  literal := by simp [sub]
  lenExtra := by simp [sub]
  length _ := length
  distExtra _ := symbol
  copyLen := by simp [sub]
  copyDist := by simp [sub]

theorem DecodingInv.of_copy (sub : s.sub = .copy) (length : 1 ≤ s.auxLen.toNat ∧ s.auxLen.toNat ≤ 258)
    (distance : 1 ≤ s.auxDist.toNat ∧ s.auxDist.toNat ≤ 32768 ∧ s.auxDist.toNat ≤ history s) : DecodingInv s where
  lt := lt
  dt := dt
  literal := by simp [sub]
  lenExtra := by simp [sub]
  length := by simp [sub]
  distExtra := by simp [sub]
  copyLen _ := length
  copyDist _ := distance

end Body

/-! ## A fetch (rules R204, R382) -/

/-- A symbol's registers meet the invariant that its extra bits ask for. -/
theorem Inv.enterOperand {s : State} {p q : Position} (h : Inv s) (running : s.inflating ≠ none) (expects : s.Expects p)
    (leads : p.Leads q) : Inv (enterOperand q s) := by
  have storage := h.storage.enterOperand q
  have next := expects_enterOperand expects leads
  cases leads with
  | @rep sym lo hi =>
    obtain ⟨dynamic, lens, within⟩ := expects
    have inv := h.dynamic dynamic
    have live := h.live running (by rw [dynamic]; decide)
    have legal := inv.legalCounts (by rw [lens]; decide)
    have symbol : (Machine.enterOperand (.repExtra sym) s).dsym.toNat = sym := next.2.2
    refine .of_live (live.congr {}) storage (h.running running) (fun _ => ?_) (fun d => nomatch dynamic.symm.trans d)
    refine .of_rep (legal.congr rfl rfl rfl) rfl (inv.lens (.inl lens)) (inv.ct (.inl lens)) ?_
    rw [symbol]
    exact ⟨lo, hi⟩
  | @length b e some =>
    obtain ⟨decoding, -, -⟩ := expects
    have inv := h.decoding decoding
    obtain ⟨-, sub, len, extra⟩ := next
    refine .of_live ((h.live running (by rw [decoding]; decide)).congr {}) storage (h.running running)
      (fun d => nomatch decoding.symm.trans d) (fun _ => .of_lenExtra inv.lt inv.dt sub ?_)
    rw [len, extra]
    exact some
  | @distance b e some =>
    obtain ⟨decoding, distSym⟩ := expects
    have inv := h.decoding decoding
    obtain ⟨-, sub, dist, extra⟩ := next
    refine .of_live ((h.live running (by rw [decoding]; decide)).congr {}) storage (h.running running)
      (fun d => nomatch decoding.symm.trans d)
      (fun _ => .of_distExtra inv.lt inv.dt sub (inv.length (.inl distSym)) ?_)
    rw [dist, extra]
    exact some

theorem workLeft_takeByte {s : State} (more : s.srcLen ≠ 0) (room : s.bc.toNat + 8 ≤ 64) :
    workLeft (takeByte s) = workLeft s := by
  simp only [workLeft, takeByte_bc_toNat room, takeByte_srcLen, takeByte_dstLen]
  bv_omega

theorem workLeft_drop {n : Nat} {s : State} (le : n ≤ s.bc.toNat) : workLeft (drop n s) + n = workLeft s := by
  simp only [workLeft, drop_bc_toNat le, drop_srcLen, drop_dstLen]
  omega

theorem workLeft_enterOperand (q : Position) (s : State) : workLeft (enterOperand q s) = workLeft s := by
  cases q <;> rfl

/-- The states that a fetch goes through at the positions it goes through, with less work than `m` counts left. -/
structure Fetching (m : Nat) (p : Position) (s : State) : Prop where
  inv     : Inv s
  running : s.inflating ≠ none
  expects : s.Expects p
  aligned : p = .storedHdr → s.bc.toNat % 8 = 0
  work    : 2 * workLeft s + 1 ≤ m + p.least

/-- A read that lacks bits holds at most 24 (rule R209). -/
theorem Fetching.few {m : Nat} {p : Position} {s : State} (h : Fetching m p s) (short : readAt p s = .short) :
    s.bc.toNat ≤ 24 := by
  have answers := readAt_answers h.inv h.expects
  rw [short] at answers
  have lacks : s.bc.toNat < p.most := answers
  cases p with
  | storedHdr =>
    have aligned := h.aligned rfl
    simp only [Position.most] at lacks
    omega
  | _ => exact lacks.le.trans (by simp only [Position.most]; omega)

theorem Fetching.not_reject {m : Nat} {p : Position} {s : State} (h : Fetching m p s) (r : DecodeError) :
    readAt p s ≠ .reject r := by
  intro reject
  have answers := readAt_answers h.inv h.expects
  rw [reject] at answers
  exact answers

theorem Fetching.takeByte {m : Nat} {p : Position} {s : State} (h : Fetching m p s) (short : readAt p s = .short)
    (more : s.srcLen ≠ 0) : Fetching m p (takeByte s) := by
  have few := h.few short
  have fill := takeByte_bc_toNat (s := s) (by omega)
  refine ⟨h.inv.takeByte (by omega), h.running, expects_of_phase (s := Machine.takeByte s) (phase_of_expects h.expects),
    fun header => ?_, ?_⟩
  · have := h.aligned header
    omega
  · rw [workLeft_takeByte more (by omega)]
    exact h.work

theorem Fetching.enterOperand {m k : Nat} {p q : Position} {s : State} (h : Fetching m p s)
    (read : readAt p s = .operand q k) : Fetching m q (enterOperand q (drop k s)) := by
  obtain ⟨leads, le⟩ := decodeAt_operand read
  have answers := readAt_answers h.inv h.expects
  rw [read] at answers
  have wide : p.least ≤ k := answers
  have dropped := h.inv.drop le
  have expects : (drop k s).Expects p := expects_of_phase (s := drop k s) (phase_of_expects h.expects)
  refine ⟨dropped.enterOperand h.running expects leads, by rw [enterOperand_inflating]; exact h.running,
    expects_enterOperand expects leads, fun header => ?_, ?_⟩
  · rw [header] at leads
    cases leads
  · have work := h.work
    have left := workLeft_drop le
    have one : p.least = 1 := by cases leads <;> rfl
    rw [workLeft_enterOperand]
    omega

theorem fetching_beforeFetch {m : Nat} {p : Position} {s : State} (h : Inv s) (running : s.inflating ≠ none)
    (at_p : phase s = .element p) (work : 2 * workLeft s + 1 ≤ m + p.least) : Fetching m p (beforeFetch p s) where
  inv := h.beforeFetch p
  running := by rw [beforeFetch_inflating]; exact running
  expects := expects_of_phase ((phase_beforeFetch p s).trans at_p)
  aligned header := by
    subst header
    exact align_bc_mod s
  work := by
    cases p with
    | storedHdr =>
      have left : workLeft (align s) + s.bc.toNat % 8 = workLeft s := workLeft_drop (Nat.mod_le _ _)
      simp only [beforeFetch] at work ⊢
      omega
    | _ => exact work

/-- Under the invariant a fetch goes through states of the invariant, to an instruction or a suspension. -/
theorem fetch_fetching {m : Nat} {p : Position} {s : State} (h : Inv s) (running : s.inflating ≠ none)
    (at_p : phase s = .element p) (work : 2 * workLeft s + 1 ≤ m + p.least) : (fetch p s).Ends (Fetching m) :=
  fetch_ends (fun _ _ h short more _ => h.takeByte short more) (fun _ _ _ _ h read => h.enterOperand read)
    (fetching_beforeFetch h running at_p work)

end Sys2Proof.Machine

/-! # Every step of a running INFLATE keeps the invariant and brings its end nearer (rules R135, R509) -/

namespace Sys2Proof.Machine

/-! ## The measure -/

/-- What the steps count that take no bit and write no byte: at most one stands between two that do. -/
def Phase.rest : Phase → Nat
  | .element p => 1 - p.least
  | .fixedSelect | .ctBuild | .dynBuild => 1
  | .emit | .copy | .closed => 0

theorem Phase.rest_le (p : Phase) : p.rest ≤ 1 := by
  cases p <;> simp [Phase.rest]

/-- The measure that every step lowers: twice the work left, and one more before a step that does none of it (rule R509). -/
def weight (s : State) : Nat := 2 * workLeft s + (phase s).rest

/-- A next state that meets the invariant, and has less than `m` to do if the INFLATE still runs. -/
def Advances (m : Nat) (r : Result) : Prop :=
  ∃ t, r = .next t ∧ Inv t ∧ (t.inflating ≠ none → weight t < m)

theorem advances_of_ended {m : Nat} {t : State} (h : Inv t) (ended : t.inflating = none) : Advances m (.next t) :=
  ⟨t, rfl, h, fun running => absurd ended running⟩

theorem advances_raise {m : Nat} {s : State} (h : StorageInv s) (c : ErrCode) : Advances m (.next (raise c s)) :=
  advances_of_ended (.raise h c) (raise_inflating c s)

theorem endInflate_inflating (st : Status) (s : State) : (endInflate st s).inflating = none := by rw [endInflate_frame]

theorem advances_endInflate {m : Nat} {s : State} (h : Inv s) (st : Status) : Advances m (.next (endInflate st s)) :=
  advances_of_ended (h.endInflate st) (endInflate_inflating st s)

theorem advances_suspendSource {m : Nat} {s : State} (h : Inv s) : Advances m (.next (suspendSource s)) := by
  refine advances_of_ended h.suspendSource ?_
  rcases suspendSource_cases s with e | e
  · rw [e, raise_inflating]
  · rw [e, endInflate_inflating]

/-- Registers of control change; the work is what it was. -/
theorem advances_of_ledger {m : Nat} {s t : State} {p : Phase} (same : SameLedger s t) (h : Inv t) (next : phase t = p)
    (work : 2 * workLeft s + p.rest < m) : Advances m (.next t) :=
  ⟨t, rfl, h, fun _ => by rw [weight, same.workLeft, next]; exact work⟩

/-! ## The end of a block (rules R318, R501) -/

theorem foldBytes_endBlock (k i : Nat) (s : State) : foldBytes k i (endBlock s) = endBlock (foldBytes k i s) := by
  induction k generalizing i s with
  | zero => rfl
  | succ k ih =>
    rw [foldBytes, foldBytes, ← ih]
    rfl

/-- The fold and the end of a block do not meet. -/
theorem endInflate_endBlock (st : Status) (s : State) : endInflate st (endBlock s) = endBlock (endInflate st s) := by
  simp only [endInflate, fold]
  rw [show produced (endBlock s) = produced s from rfl, foldBytes_endBlock]
  rfl

/-- The block after this one begins with its header; the final one is followed by nothing. -/
theorem Inv.endBlock {s : State} (h : Inv s) (live : s.bstate ≠ .bad) (taken : s.consumedAny = true)
    (more : s.inflating ≠ none → s.bfinal = false) : Inv (endBlock s) where
  storage := h.storage.endBlock
  slow _ := h.slow live
  running r := by rw [endBlock_bstate, more r]; rfl
  room r := h.room r
  fresh none := nomatch none.symm.trans taken
  dynamic d := by rw [endBlock_bstate] at d; split at d <;> cases d
  decoding d := by rw [endBlock_bstate] at d; split at d <;> cases d

theorem advances_endBlock {m : Nat} {s : State} (h : Inv s) (live : Live s) (work : 2 * workLeft s < m) :
    Advances m (.next (afterStep (endBlock s))) := by
  have notBad := h.not_bad live.running
  cases final : s.bfinal with
  | true =>
    have last : (endBlock s).bstate = .finalConsumed := by rw [endBlock_bstate, final]; rfl
    have ended := endInflate_inflating .ok s
    have frame := endInflate_frame .ok s
    rw [afterStep, if_pos last, endInflate_endBlock]
    refine advances_of_ended ((h.endInflate .ok).endBlock ?_ ?_ fun r => absurd ended r) ended
    · rw [frame]
      exact notBad
    · rw [frame]
      exact live.taken
  | false =>
    have next : (endBlock s).bstate = .needHeader := by rw [endBlock_bstate, final]; rfl
    rw [afterStep, if_neg (by rw [next]; decide)]
    exact advances_of_ledger (s := s) {} (h.endBlock notBad live.taken fun _ => final) (phase_of_expects (p := .hdr) next) work

/-! ## Bytes for the target (rules R88, R317, R381, R451) -/

/-- Room in the target for a byte of this INFLATE (rule R86). -/
theorem produced_storeByte {s : State} (v : Byte) (room : produced s + s.dstLen.toNat < 2 ^ 32) (more : s.dstLen ≠ 0) :
    produced (storeByte v s) = produced s + 1 ∧ (storeByte v s).dstLen.toNat + 1 = s.dstLen.toNat := by
  simp only [produced, storeByte_dstPtr, storeByte_tbegin, storeByte_dstLen] at room ⊢
  constructor <;> bv_omega

theorem Live.storeByte {s : State} (h : Live s) (v : Byte) (more : s.dstLen ≠ 0) : Live (storeByte v s) where
  slow := h.slow
  running := h.running
  room := by
    have := produced_storeByte v h.room more
    have := h.room
    omega
  taken := h.taken

theorem workLeft_storeByte {s : State} (v : Byte) (more : s.dstLen ≠ 0) : workLeft (storeByte v s) + 1 = workLeft s := by
  simp only [workLeft, storeByte_bc, storeByte_srcLen, storeByte_dstLen]
  bv_omega

/-- A byte written adds to the history. -/
theorem history_storeByte {s : State} (h : Live s) (v : Byte) (more : s.dstLen ≠ 0) :
    history (storeByte v s) = history s + 1 := by
  have produced := (produced_storeByte v h.room more).1
  have running : (storeByte v s).inflating ≠ none := h.running
  rw [history, history, if_neg h.running, if_neg running, available, available, produced]
  rfl

theorem Live.drop {n : Nat} {s : State} (h : Live s) (le : n ≤ s.bc.toNat) : Live (drop n s) where
  slow := by have := drop_bc_toNat le; have := h.slow; omega
  running := h.running
  room := h.room
  taken := h.taken

/-- What a stored block's copy keeps, byte by byte. -/
structure StoredCopy (n : Nat) (s : State) : Prop where
  live    : Live s
  storage : StorageInv s
  stored  : s.bstate = .stored
  work    : workLeft s ≤ n

theorem StoredCopy.inv {n : Nat} {s : State} (h : StoredCopy n s) : Inv s :=
  .of_live h.live h.storage (by rw [h.stored]; rfl) (fun d => nomatch h.stored.symm.trans d)
    (fun d => nomatch h.stored.symm.trans d)

theorem StoredCopy.storeHeldByte {n : Nat} {s : State} (h : StoredCopy n s) (room : s.dstLen ≠ 0) (held : 8 ≤ s.bc.toNat) :
    StoredCopy n (storeHeldByte s) where
  live := ((h.live.drop held).storeByte (BitVec.ofNat 8 (peek 8 s)) room).congr {}
  storage := h.storage.storeHeldByte held
  stored := h.stored
  work := by
    have stored : workLeft (Machine.storeHeldByte s) + 1 = workLeft (drop 8 s) :=
      workLeft_storeByte (s := drop 8 s) (BitVec.ofNat 8 (peek 8 s)) room
    have dropped := workLeft_drop held
    have := h.work
    omega

theorem StoredCopy.storeSourceByte {n : Nat} {s : State} (h : StoredCopy n s) (room : s.dstLen ≠ 0) (more : s.srcLen ≠ 0) :
    StoredCopy n (storeSourceByte s) where
  live := by
    have advanced : Live (advanceSource s) := ⟨h.live.slow, h.live.running, h.live.room, rfl⟩
    exact (advanced.storeByte (sourceByte s) room).congr {}
  storage := h.storage.storeSourceByte
  stored := h.stored
  work := by
    have stored : workLeft (Machine.storeSourceByte s) + 1 = workLeft (advanceSource s) :=
      workLeft_storeByte (s := advanceSource s) (sourceByte s) room
    have advanced : workLeft (advanceSource s) + 8 = workLeft s := by
      simp only [workLeft, advanceSource_bc, advanceSource_srcLen, advanceSource_dstLen]
      bv_omega
    have := h.work
    omega

/-- STORED_DATA: the copy keeps the invariant, and the block ends or the INFLATE does. -/
theorem storedData_advances {m : Nat} {s : State} (h : Inv s) (live : Live s) (stored : s.bstate = .stored)
    (work : 2 * workLeft s < m) : Advances m (execStoredData s) := by
  have copied : StoredCopy (workLeft s) (copyStored s.srem.toNat s).state :=
    copyStored_ends (fun _ h room held => h.storeHeldByte room held) (fun _ h room more => h.storeSourceByte room more)
      s.srem.toNat ⟨live, h.storage, stored, le_rfl⟩
  rw [execStoredData]
  generalize copyStored s.srem.toNat s = f at copied
  cases f with
  | done t => exact advances_endBlock copied.inv copied.live (by have : workLeft t ≤ _ := copied.work; omega)
  | sourceDry t => exact advances_suspendSource copied.inv
  | targetFull t => exact advances_endInflate copied.inv _

/-- What a match's copy keeps, byte by byte, with `k` bytes still to copy of a match that began with `n` units of work. -/
structure MatchCopy (n k : Nat) (s : State) : Prop where
  live     : Live s
  storage  : StorageInv s
  decoding : s.bstate = .decoding
  lt       : s.tsel = .dynamic → selects litLenEntry s.lt Config.lroot
  dt       : s.tsel = .dynamic → selects distEntry s.dt Config.droot
  sub      : s.sub = .copy
  left     : s.auxLen.toNat = k
  length   : k ≤ 258
  distance : 1 ≤ s.auxDist.toNat ∧ s.auxDist.toNat ≤ 32768 ∧ s.auxDist.toNat ≤ history s
  work     : workLeft s ≤ n + k

theorem MatchCopy.inv {n k : Nat} {s : State} (h : MatchCopy n (k + 1) s) : Inv s := by
  have left := h.left
  have length := h.length
  refine .of_live h.live h.storage (by rw [h.decoding]; rfl) (fun d => nomatch h.decoding.symm.trans d) fun _ => ?_
  exact .of_copy h.lt h.dt h.sub (by omega) h.distance

theorem MatchCopy.copyMatchByte {n k : Nat} {s : State} (h : MatchCopy n (k + 1) s) (room : s.dstLen ≠ 0) :
    MatchCopy n k (copyMatchByte s) where
  live := (h.live.storeByte (sourceOfMatch s.auxDist.toNat s) room).congr {}
  storage := h.storage.copyMatchByte
  decoding := h.decoding
  lt := h.lt
  dt := h.dt
  sub := h.sub
  left := by
    have left := h.left
    rw [copyMatchByte_auxLen]
    bv_omega
  length := by have := h.length; omega
  distance := by
    have grown : history (Machine.copyMatchByte s) = history s + 1 :=
      history_storeByte h.live (sourceOfMatch s.auxDist.toNat s) room
    obtain ⟨lo, hi, reached⟩ := h.distance
    exact ⟨lo, hi, by rw [grown]; exact reached.trans (Nat.le_succ _)⟩
  work := by
    have stored : workLeft (Machine.copyMatchByte s) + 1 = workLeft s :=
      workLeft_storeByte (sourceOfMatch s.auxDist.toNat s) room
    have := h.work
    omega

/-- DEC-COPY: the match goes on, and then a symbol comes next, or the INFLATE is suspended in it. -/
theorem copyMatch_advances {m n : Nat} (less : 2 * n + 1 < m) (k : Nat) {s : State} (h : MatchCopy n k s) :
    Advances m ((copyMatch k s).finish fun t => { t with sub := .litLen }) := by
  induction k generalizing s with
  | zero =>
    have left := h.left
    refine advances_of_ledger (s := s) {} (.of_live (h.live.congr {}) ?_ ?_ ?_ ?_) rfl ?_
    · exact SameStorage.storageInv {} h.storage
    · rw [h.decoding]
      rfl
    · exact fun d => nomatch h.decoding.symm.trans d
    · exact fun _ => .of_litLen h.lt h.dt rfl fun _ => by rw [left]; omega
    · have work := h.work
      exact (Nat.add_le_add_left (Phase.rest_le _) _).trans_lt (by omega)
  | succ k ih =>
    rw [copyMatch]
    split
    · exact advances_endInflate h.inv _
    · exact ih (h.copyMatchByte ‹_›)

end Sys2Proof.Machine

/-! # Every step of a running INFLATE: its elements, and the steps that read none (rules R310, R340, R380) -/

namespace Sys2Proof.Machine

/-! ## Bounds of lengths and distances (rules R454, R455) -/

/-- Lengths are 3 to 258. -/
theorem lbase_add_bounds {sym : Nat} (lo : 257 ≤ sym) (hi : sym < 286) (x : Nat) :
    3 ≤ lbase sym + x % 2 ^ lextra sym ∧ lbase sym + x % 2 ^ lextra sym ≤ 258 := by
  have bounds : ∀ p ∈ lengthTable, 3 ≤ p.1 ∧ p.1 + 2 ^ p.2 ≤ 259 := by decide
  have inside : sym - 257 < lengthTable.length := by
    rw [show lengthTable.length = 29 from rfl]
    omega
  obtain ⟨least, largest⟩ := bounds _ (List.getElem_mem inside)
  rw [← List.getD_eq_getElem _ (0, 0)] at least largest
  have small : x % 2 ^ lextra sym < 2 ^ lextra sym := Nat.mod_lt _ (by positivity)
  rw [lbase, lextra] at *
  omega

/-- Distances begin at 1. -/
theorem one_le_dbase {sym : Nat} (hi : sym < 30) : 1 ≤ dbase sym := by
  have least : ∀ p ∈ distanceTable, 1 ≤ p.1 := by decide
  rw [dbase, List.getD_eq_getElem _ _ (show sym < distanceTable.length from hi)]
  exact least _ (List.getElem_mem _)

/-! ## The elements (rule R380) -/

section Element

variable {m : Nat} {s : State} (h : Inv s) (live : Live s)

include h live

/-- An element that leads to a block state with nothing to establish yet. -/
theorem advances_of_blockState {i : Instr} {t : State} (run : exec i s = .next t) (same : SameLedger s t)
    (runs : t.bstate.runs = true) (dynamic : t.bstate = .dynamic → t.dphase = .counts) (other : t.bstate ≠ .decoding)
    (work : 2 * workLeft s + 1 < m) : Advances m (exec i s) := by
  rw [run]
  exact advances_of_ledger same (.of_live (live.congr same) (h.storage.exec run) runs (fun d => .of_counts (dynamic d))
    (fun d => absurd d other)) rfl ((Nat.add_le_add_left (Phase.rest_le _) _).trans_lt work)

theorem storedhdr_advances (len nlen : BitVec 16) (stored : s.bstate = .stored) (work : 2 * workLeft s + 1 < m) :
    Advances m (exec (.storedhdr len nlen) s) := by
  by_cases complement : nlen = len ^^^ 0xFFFF#16
  · refine advances_of_blockState h live (i := .storedhdr len nlen) (execStoredhdr_of_complement complement) {} ?_ ?_ ?_ work
    all_goals simp [stored, BState.runs]
  · rw [show exec (.storedhdr len nlen) s = _ from execStoredhdr_of_other complement]
    exact advances_raise h.storage _

/-- A step within a dynamic header: what the header has established stays. -/
theorem advances_of_header {i : Instr} {t : State} (dynamic : s.bstate = .dynamic) (run : exec i s = .next t)
    (same : SameLedger s t) (bstate : t.bstate = s.bstate) (inv : DynamicInv t) (work : 2 * workLeft s + 1 < m) :
    Advances m (exec i s) := by
  rw [run]
  refine advances_of_ledger same (.of_live (live.congr same) (h.storage.exec run) ?_ (fun _ => inv) (fun d => ?_)) rfl
    ((Nat.add_le_add_left (Phase.rest_le _) _).trans_lt work)
  · rw [bstate, dynamic]
    rfl
  · rw [bstate, dynamic] at d
    cases d

theorem dynhdr_advances (l d : BitVec 5) (c : BitVec 4) (dynamic : s.bstate = .dynamic) (work : 2 * workLeft s + 1 < m) :
    Advances m (exec (.dynhdr l d c) s) := by
  by_cases legal : l.toNat + 257 ≤ 286 ∧ d.toNat + 1 ≤ 30
  · obtain ⟨hl, hd⟩ := legal
    have hc := c.isLt
    have hlit := withCounts_hlit l d c s
    have hdist := withCounts_hdist (hlit := l) c s hd
    have hclen := withCounts_hclen l d c s
    have legal : LegalCounts (withCounts l d c s) := ⟨by omega, by omega, by omega⟩
    refine advances_of_header h live dynamic (execDynhdr_of_legal hl hd) {} rfl ?_ work
    exact .of_clens (legal.congr rfl rfl rfl) rfl (Nat.zero_le _)
  · rw [show exec (.dynhdr l d c) s = _ from execDynhdr_of_illegal (by omega)]
    exact advances_raise (SameStorage.storageInv {} h.storage) _

theorem cll_advances (len : BitVec 3) (expects : s.Expects .cll) (work : 2 * workLeft s + 1 < m) :
    Advances m (exec (.cll len) s) := by
  obtain ⟨dynamic, clens, within⟩ := expects
  have legal := (h.dynamic dynamic).legalCounts (by rw [clens]; decide)
  refine advances_of_header h live dynamic (i := .cll len) rfl {} rfl ?_ work
  refine .of_clens (legal.congr rfl rfl rfl) clens ?_
  show (s.idx + 1).toNat ≤ s.hclen.toNat
  bv_omega

/-- Lengths that end within the vector. -/
theorem lens_advances {i : Instr} {t : State} {r : Nat} (v : BitVec 4) (dynamic : s.bstate = .dynamic)
    (begun : s.dphase = .lens ∨ s.dphase = .rep) (fits : s.idx.toNat + r ≤ vectorLength s) (run : exec i s = .next t)
    (dphase : t.dphase = .lens)
    (pushed : t = { s with idx := (pushLens r v s).idx, lens := t.lens, dphase := t.dphase, dsym := t.dsym })
    (work : 2 * workLeft s + 1 < m) : Advances m (exec i s) := by
  have inv := h.dynamic dynamic
  have legal := inv.legalCounts (by rcases begun with e | e <;> rw [e] <;> decide)
  have idx := pushLens_idx_toNat r v (s := s) (by have := legal.vectorLength_bounds; omega)
  refine advances_of_header h live dynamic run ?_ (by rw [pushed]) ?_ work
  · rw [pushed]
    exact {}
  · refine .of_lens (legal.congr (by rw [pushed]) (by rw [pushed]) (by rw [pushed])) dphase ?_ ?_
    · rw [pushed]
      exact idx.trans_le fits
    · rw [pushed]
      exact inv.ct begun

theorem codeLength_advances {i : Instr} {n : BitVec 4} (run : exec i s = codeLength n s) (expects : s.Expects .clsym)
    (work : 2 * workLeft s + 1 < m) : Advances m (exec i s) := by
  obtain ⟨dynamic, lens, within⟩ := expects
  exact lens_advances h live (r := 1) n dynamic (.inl lens) within run lens rfl work

/-- A repeat: within the vector it appends its lengths, past the end it raises an error. -/
theorem repeatLengths_advances {i : Instr} {sym r : Nat} {v : BitVec 4}
    (run : exec i s = repeatLengths r v (enterOperand (.repExtra sym) s)) (dynamic : s.bstate = .dynamic)
    (rep : s.dphase = .rep) (work : 2 * workLeft s + 1 < m) : Advances m (exec i s) := by
  rcases Nat.lt_or_ge (vectorLength s) (s.idx.toNat + r) with past | fits
  · rw [run, repeatLengths_of_past (s := enterOperand (.repExtra sym) s) past]
    exact advances_raise (SameStorage.storageInv {} h.storage) _
  · refine lens_advances h live (r := r) v dynamic (.inr rep) fits (run.trans (repeatLengths_of_fits fits)) rfl ?_ work
    rw [pushLens_frame r v (enterOperand (.repExtra sym) s), pushLens_frame r v s]
    rfl

theorem rep16_advances (x : BitVec 2) (dynamic : s.bstate = .dynamic) (rep : s.dphase = .rep)
    (work : 2 * workLeft s + 1 < m) : Advances m (exec (.rep16 x) s) := by
  by_cases first : s.idx = 0
  · rw [show exec (.rep16 x) s = .next (raise .badTree (enterOperand (.repExtra 16) s)) from if_pos first]
    exact advances_raise (SameStorage.storageInv {} h.storage) _
  · exact repeatLengths_advances h live (i := .rep16 x) (if_neg first) dynamic rep work

/-- A step within a block body that leaves the INFLATE running. -/
theorem advances_of_body {i : Instr} {t : State} {p : Phase} (decoding : s.bstate = .decoding) (run : exec i s = .next t)
    (same : SameLedger s t) (bstate : t.bstate = s.bstate) (inv : DecodingInv t) (next : phase t = p)
    (work : 2 * workLeft s + p.rest < m) : Advances m (exec i s) := by
  rw [run]
  refine advances_of_ledger same (.of_live (live.congr same) (h.storage.exec run) ?_ (fun d => ?_) (fun _ => inv)) next work
  · rw [bstate, decoding]
    rfl
  · rw [bstate, decoding] at d
    cases d

theorem literal_advances (b : Byte) (expects : s.Expects .ll) (work : 2 * workLeft s + 1 < m) :
    Advances m (exec (.lit b) s) := by
  obtain ⟨decoding, sub, -⟩ := expects
  have inv := h.decoding decoding
  refine advances_of_body h live decoding (i := .lit b) rfl {} rfl ?_ rfl
    ((Nat.add_le_add_left (Phase.rest_le _) _).trans_lt work)
  refine .of_litLen inv.lt inv.dt sub fun _ => ?_
  show (b.setWidth 9).toNat ≤ 255
  bv_omega

/-- A length symbol, with or without extra bits: a distance symbol comes next. -/
theorem length_advances {i : Instr} {b e sym x : Nat} (hs : lengthSymbol b e = some sym) (hi : lengthInstr sym x = some i)
    (decoding : s.bstate = .decoding) (work : 2 * workLeft s < m) : Advances m (exec i s) := by
  obtain ⟨lo, lt, -⟩ := lengthSymbol_eq_some hs
  obtain ⟨j, hj, -, meaning⟩ := lengthInstr_of_lt lo lt x
  obtain rfl := Option.some.inj (hi.symm.trans hj)
  obtain ⟨least, most⟩ := lbase_add_bounds lo lt x
  have inv := h.decoding decoding
  refine advances_of_body h live decoding ((meaning s).trans (lengthElement_eq _ _ _ s)) {} rfl ?_
    (phase_of_expects (p := .dist) ⟨decoding, rfl⟩) work
  refine .of_distSym inv.lt inv.dt rfl ?_
  show 3 ≤ (BitVec.ofNat 9 _).toNat ∧ (BitVec.ofNat 9 _).toNat ≤ 258
  rw [BitVec.toNat_ofNat, Nat.mod_eq_of_lt (by omega)]
  exact ⟨least, most⟩

/-- A distance symbol, with or without extra bits: the copy comes next, or the history does not reach so far. -/
theorem distance_advances {i : Instr} {b e sym x : Nat} (hs : distanceSymbol b e = some sym)
    (hi : distanceInstr sym x = some i) (decoding : s.bstate = .decoding) (sub : s.sub = .distSym ∨ s.sub = .distExtra)
    (work : 2 * workLeft s < m) : Advances m (exec i s) := by
  obtain ⟨lt, -⟩ := distanceSymbol_eq_some hs
  obtain ⟨j, hj, -, meaning⟩ := distanceInstr_of_lt lt x
  obtain rfl := Option.some.inj (hi.symm.trans hj)
  have least := one_le_dbase lt
  have most := dbase_add_le sym x
  rcases Nat.lt_or_ge (available s) (dbase sym + x % 2 ^ dextra sym) with far | near
  · rw [meaning, distanceElement_of_far (by omega) far]
    exact advances_raise (SameStorage.storageInv {} h.storage) _
  · have inv := h.decoding decoding
    obtain ⟨pos, bound⟩ := inv.length sub
    refine advances_of_body h live decoding ((meaning s).trans (distanceElement_of_near (by omega) near)) {} rfl ?_
      (phase_of_copy decoding rfl) work
    refine .of_copy inv.lt inv.dt rfl ⟨Nat.le_of_add_left_le pos, bound⟩ ?_
    show 1 ≤ (BitVec.ofNat 16 _).toNat ∧ (BitVec.ofNat 16 _).toNat ≤ 32768 ∧ (BitVec.ofNat 16 _).toNat ≤ history s
    rw [BitVec.toNat_ofNat, Nat.mod_eq_of_lt (by omega), history, if_neg live.running]
    exact ⟨by omega, most, near⟩

/-- Every element that stands where the registers expect it keeps the invariant, and leaves less to do. -/
theorem exec_advances {q : Position} {i : Instr} (holds : q.Holds i) (expects : s.Expects q)
    (work : 2 * workLeft s + q.least < m) : Advances m (exec i s) := by
  cases holds with
  | stored f => exact advances_of_blockState h live (i := .blockStored f) rfl {} rfl nofun nofun work
  | fixed f => exact advances_of_blockState h live (i := .blockFixed f) rfl {} rfl nofun nofun work
  | dynamic f => exact advances_of_blockState h live (i := .blockDynamic f) rfl {} rfl (fun _ => rfl) nofun work
  | reserved f => exact advances_raise (s := setFinal f s) (SameStorage.storageInv {} h.storage) _
  | storedHdr len nlen => exact storedhdr_advances h live len nlen expects.1 work
  | storedData => exact storedData_advances h live expects.1 work
  | counts l d c => exact dynhdr_advances h live l d c expects.1 work
  | cll len => exact cll_advances h live len expects work
  | codeLength le hi =>
    obtain ⟨j, hj, -, meaning⟩ := clInstr_of_le le
    obtain rfl := Option.some.inj (hi.symm.trans hj)
    exact codeLength_advances h live (meaning s) expects work
  | rep16 x => exact rep16_advances h live x expects.1 expects.2.1 work
  | rep17 x => exact repeatLengths_advances h live (i := .rep17 x) rfl expects.1 expects.2.1 work
  | rep18 x => exact repeatLengths_advances h live (i := .rep18 x) rfl expects.1 expects.2.1 work
  | literal b => exact literal_advances h live b expects work
  | endOfBlock => exact advances_endBlock h live ((Nat.le_add_right _ _).trans_lt work)
  | invalid286 | invalid287 | invalid30 | invalid31 => exact advances_raise h.storage .badCode
  | length hs hi => exact length_advances h live hs hi expects.1 ((Nat.le_add_right _ _).trans_lt work)
  | lenExtra hs hi => exact length_advances h live hs hi expects.1 work
  | distance hs hi => exact distance_advances h live hs hi expects.1 (.inl expects.2) ((Nat.le_add_right _ _).trans_lt work)
  | distExtra hs hi => exact distance_advances h live hs hi expects.1 (.inr expects.2.1) work

end Element

/-! ## The steps that read no element (rules R319, R343, R350, R381, R451) -/

section Silent

variable {s : State} (h : Inv s) (running : s.inflating ≠ none)

include h running

theorem fixedSelect_advances (at_fixed : phase s = .fixedSelect) : Advances (weight s) (.next (enterBody .fixed s)) := by
  have fixed : s.Selects .fixedSelect := .of_phase at_fixed
  have live := (h.live running (by rw [show s.bstate = .fixed from fixed]; decide)).congr (t := enterBody .fixed s) {}
  refine advances_of_ledger (s := s) {} (.of_live live ?_ rfl nofun fun _ => .of_litLen nofun nofun rfl nofun)
    (phase_of_expects (p := .ll) ⟨rfl, rfl, rfl⟩) ?_
  · exact SameStorage.storageInv {} h.storage
  · rw [weight, at_fixed]
    exact Nat.lt_succ_self _

theorem ctBuild_advances (at_build : phase s = .ctBuild) : Advances (weight s) (ctBuild s) := by
  obtain ⟨dynamic, clens⟩ : s.Selects .ctBuild := .of_phase at_build
  have live := h.live running (by rw [dynamic]; decide)
  have legal := (h.dynamic dynamic).legalCounts (by rw [clens]; decide)
  cases built : build .codes (clensVector s) s.ct with
  | none =>
    rw [ctBuild_of_none built]
    exact advances_raise (h.storage.withTables (wf_unspecifiedTable _ s) h.storage.lt h.storage.dt) _
  | some T =>
    have storage := h.storage.withTables (wf_of_build built) h.storage.lt h.storage.dt
    have nonempty : 0 < vectorLength s := (by decide : 0 < 258).trans_le legal.vectorLength_bounds.1
    rw [ctBuild_of_some built]
    refine advances_of_ledger (s := s) {} (.of_live (live.congr {}) ?_ ?_ (fun _ => ?_)
      fun d => nomatch dynamic.symm.trans d) (phase_of_expects (p := .clsym) ⟨dynamic, rfl, nonempty⟩) ?_
    · exact SameStorage.storageInv {} storage
    · rw [dynamic]
      rfl
    · exact .of_lens (legal.congr rfl rfl rfl) rfl (Nat.zero_le _) (selects_ct_of_build built)
    · rw [weight, at_build]
      exact Nat.lt_succ_self _

theorem dynBuild_advances (at_build : phase s = .dynBuild) : Advances (weight s) (dynBuild s) := by
  obtain ⟨dynamic, lens⟩ : s.Selects .dynBuild := .of_phase at_build
  have live := h.live running (by rw [dynamic]; decide)
  by_cases eob : Ram.read 0 s.lens 256 = 0
  · rw [dynBuild_of_no_endOfBlock eob]
    exact advances_raise h.storage _
  cases built : build .lens (lensSlice s 0 s.hlit.toNat) s.lt with
  | none =>
    rw [dynBuild_of_none eob built]
    exact advances_raise (h.storage.withTables h.storage.ct (wf_unspecifiedTable _ s) h.storage.dt) _
  | some T =>
    rw [dynBuild_of_some eob built]
    cases built' : build .dists (lensSlice s s.hlit.toNat s.hdist.toNat) s.dt with
    | none =>
      rw [dynBuildDist_of_none (s := { s with lt := T }) built']
      exact advances_raise (h.storage.withTables h.storage.ct (wf_of_build built) (wf_unspecifiedTable _ s)) _
    | some U =>
      have storage := h.storage.withTables h.storage.ct (wf_of_build built) (wf_of_build built')
      rw [dynBuildDist_of_some (s := { s with lt := T }) built']
      refine advances_of_ledger (s := s) {} (.of_live (live.congr {}) ?_ rfl nofun fun _ => ?_)
        (phase_of_expects (p := .ll) ⟨rfl, rfl, rfl⟩) ?_
      · exact SameStorage.storageInv {} storage
      · exact .of_litLen (fun _ => selects_lt_of_build built) (fun _ => selects_dt_of_build built') rfl nofun
      · rw [weight, at_build]
        exact Nat.lt_succ_self _

theorem emitLiteral_advances (at_emit : phase s = .emit) : Advances (weight s) (emitLiteral s) := by
  obtain ⟨decoding, sub⟩ : s.Selects .emit := .of_phase at_emit
  have live := h.live running (by rw [decoding]; decide)
  have inv := h.decoding decoding
  unfold emitLiteral
  split
  · exact advances_endInflate h _
  · have stored := workLeft_storeByte (s.auxLen.setWidth 8) (s := s) ‹_›
    have emitted := live.storeByte (s.auxLen.setWidth 8) ‹_›
    refine advances_of_ledger (s := storeByte (s.auxLen.setWidth 8) s) {} (.of_live (emitted.congr {}) ?_
      (h.running running) (fun d => nomatch decoding.symm.trans d) fun _ => .of_litLen inv.lt inv.dt sub nofun)
      (phase_of_expects (p := .ll) ⟨decoding, sub, rfl⟩) ?_
    · exact SameStorage.storageInv {} (h.storage.storeByte (s.auxLen.setWidth 8))
    · simp only [weight, Phase.rest, Position.least]
      omega

theorem copyStep_advances (at_copy : phase s = .copy) : Advances (weight s) (copyStep s) := by
  obtain ⟨decoding, sub⟩ : s.Selects .copy := .of_phase at_copy
  have live := h.live running (by rw [decoding]; decide)
  have inv := h.decoding decoding
  obtain ⟨pos, bound⟩ := inv.copyLen sub
  rw [copyStep]
  by_cases full : s.dstLen = 0
  · have suspended : copyMatch s.auxLen.toNat s = .targetFull s := by
      obtain ⟨k, len⟩ := Nat.exists_eq_add_of_le' pos
      rw [len, copyMatch, if_pos full]
    rw [suspended]
    exact advances_endInflate h _
  · have less : 2 * (workLeft s - s.auxLen.toNat) + 1 < weight s := by
      have : 0 < s.dstLen.toNat := by bv_omega
      rw [weight, workLeft]
      omega
    exact copyMatch_advances less _ ⟨live, h.storage, decoding, inv.lt, inv.dt, sub, rfl, bound, inv.copyDist sub, by omega⟩

/-- A running INFLATE always has a next state; the invariant holds there, and less is left to do. -/
theorem streamStep_advances : Advances (weight s) (streamStep s) := by
  have cases := streamStep_cases s
  generalize streamStep s = r at cases
  cases cases with
  | @element p _ at_p fetched =>
    have work : 2 * workLeft s + 1 ≤ weight s + p.least := by
      rw [weight, at_p, Phase.rest]
      omega
    have ends := fetch_fetching h running at_p work
    subst fetched
    generalize fetch p s = f at ends
    cases f with
    | instr i v =>
      obtain ⟨q, u, w, rfl, hu, read⟩ := ends
      obtain ⟨holds, le⟩ := decodeAt_elem read
      have answers := readAt_answers hu.inv hu.expects
      rw [read] at answers
      have wide : q.least ≤ w := answers
      have left := workLeft_drop le
      have budget := hu.work
      have taken : u.consumedAny = true := by
        refine (hu.inv.taken_or_fresh hu.running).resolve_right fun ⟨header, empty⟩ => ?_
        have none : w = 0 := Nat.le_zero.mp (le.trans (by rw [empty]; rfl))
        have at_header : q = .hdr := hu.expects.eq_hdr header
        rw [none, at_header] at wide
        cases wide
      have dropped := hu.inv.drop le
      have expects : (drop w u).Expects q := expects_of_phase (s := drop w u) (phase_of_expects hu.expects)
      exact exec_advances dropped (dropped.live_of_taken hu.running taken) holds expects (by omega)
    | suspended u =>
      obtain ⟨q, hu, -⟩ := ends
      exact advances_suspendSource hu.inv
    | stopped fault =>
      obtain ⟨q, u, hu, ⟨reason, reject⟩ | ⟨short, full⟩⟩ := ends
      · exact absurd reject (hu.not_reject reason)
      · have := hu.few short
        omega
  | fixedSelect at_fixed => exact fixedSelect_advances h running at_fixed
  | ctBuild at_build build => exact build ▸ ctBuild_advances h running at_build
  | dynBuild at_build build => exact build ▸ dynBuild_advances h running at_build
  | emit at_emit emit => exact emit ▸ emitLiteral_advances h running at_emit
  | copy at_copy copy => exact copy ▸ copyStep_advances h running at_copy
  | closed at_closed _ =>
    have stopped : s.Selects .closed := .of_phase at_closed
    exact nomatch (h.running running).symm.trans stopped

end Silent

end Sys2Proof.Machine

/-! # The whole machine: the invariant, no faults, and the end of every INFLATE (rules R135, R246, R509) -/

namespace Sys2Proof.Machine

/-! ## Between commands (rules R30, R61, R62, R93) -/

/-- Between commands the spans, host memory and the host's registers are free to change. -/
theorem Inv.of_idle {s t : State} (h : Inv s) (idle : s.inflating = none) (same : SameControl s t) (storage : StorageInv t)
    (bc : t.bc = s.bc := by rfl) (consumed : t.consumedAny = s.consumedAny := by rfl)
    (wCount : t.wCount = s.wCount := by rfl) (inflating : t.inflating = s.inflating := by rfl) : Inv t := by
  refine h.congr same storage (fun live => ?_) (fun none => ?_) (fun r => absurd (inflating.trans idle) r) ?_
  · rw [bc]
    exact h.slow live
  · rw [bc]
    exact ⟨consumed.symm.trans none, le_rfl⟩
  · rw [history, history, if_pos idle, if_pos (inflating.trans idle), wCount]
    exact min_le_right _ _

theorem Inv.resetRegisters {s : State} (h : Inv s) (idle : s.inflating = none) : Inv (resetRegisters s) where
  storage := h.storage.resetRegisters
  slow _ := Nat.zero_le _
  running r := absurd idle r
  room r := absurd idle r
  fresh _ := .inr (.inr ⟨rfl, rfl⟩)
  dynamic d := nomatch d
  decoding d := nomatch d

/-- A dictionary replaces the history only where no match is held. -/
theorem Inv.install {s : State} (h : Inv s) (idle : s.inflating = none) (live : s.bstate ≠ .bad)
    (early : dictionaryTooLate s = false) : Inv { install s with status := .ok } := by
  have frame := install_frame s
  have none : ¬ (s.bstate = .uninit ∨ s.consumedAny = true) := by
    rw [← dictionaryTooLate_iff, early]
    decide
  have fresh := h.fresh (Bool.eq_false_of_not_eq_true fun taken => none (.inr taken))
  have header : s.bstate = .needHeader := ((fresh.resolve_left fun u => none (.inl u)).resolve_left live).1
  have storage : StorageInv { Machine.install s with status := .ok } := SameStorage.storageInv {} h.storage.install
  rw [frame] at storage ⊢
  exact {
    storage := storage
    slow := h.slow
    running := fun r => absurd idle r
    room := fun r => absurd idle r
    fresh := fun _ => fresh
    dynamic := fun d => nomatch header.symm.trans d
    decoding := fun d => nomatch header.symm.trans d }

/-- The block states in which INFLATE begins its steps (rules R496 to R498). -/
theorem BState.runs_of_open {b : BState} (live : b ≠ .bad) (init : b ≠ .uninit) (unfinished : b ≠ .finalConsumed) :
    b.runs = true := by
  cases b with
  | uninit => exact absurd rfl init
  | finalConsumed => exact absurd rfl unfinished
  | bad => exact absurd rfl live
  | _ => rfl

theorem Inv.execInflate {s t : State} {final : Bool} (h : Inv s) (idle : s.inflating = none)
    (next : execInflate final s = .next t) : Inv t := by
  obtain ⟨-, rfl⟩ | ⟨live, -, -, -, ⟨-, rfl⟩ | ⟨-, rfl⟩ | ⟨init, unfinished, rfl⟩⟩ := execInflate_cases next
  · exact h.of_idle idle {} (SameStorage.storageInv {} h.storage)
  · exact .raise h.storage _
  · exact h.of_idle idle {} (SameStorage.storageInv {} h.storage)
  · have runs := BState.runs_of_open live init unfinished
    have start : produced { s with tbegin := s.dstPtr, inflating := some final } = 0 := by simp [produced]
    refine h.congr {} (SameStorage.storageInv {} h.storage) h.slow (fun none => ⟨none, le_rfl⟩) (fun _ => ⟨runs, ?_⟩) ?_
    · rw [start, Nat.zero_add]
      exact s.dstLen.isLt
    · rw [history, history, if_pos idle, if_neg nofun, available, start]
      exact min_le_right _ _

theorem Inv.execSetDictionary {s t : State} (h : Inv s) (idle : s.inflating = none)
    (next : execSetDictionary s = .next t) : Inv t := by
  obtain ⟨-, rfl⟩ | ⟨live, -, -, ⟨-, rfl⟩ | ⟨early, rfl⟩⟩ := execSetDictionary_cases next
  · exact h.of_idle idle {} (SameStorage.storageInv {} h.storage)
  · exact .raise h.storage _
  · exact h.install idle live early

theorem Inv.hostCommand {s t : State} {off val : Word} {i : Instr} (h : Inv s) (idle : s.inflating = none)
    (command : decodeHostWrite off val = some i) (next : exec i s = .next t) : Inv t := by
  rcases decodeHostWrite_cases command with ⟨rfl, -⟩ | rfl | ⟨f, rfl⟩ | ⟨opc, rfl⟩ | ⟨half, v, rfl⟩ | ⟨half, v, rfl⟩
  · obtain rfl := Host.Outcome.next.inj next
    exact h.resetRegisters idle
  · exact h.execSetDictionary idle next
  · exact h.execInflate idle next
  · obtain rfl := Host.Outcome.next.inj next
    exact h
  · cases half <;> obtain rfl := Host.Outcome.next.inj next <;>
      exact h.of_idle idle {} (SameStorage.storageInv {} h.storage)
  · cases half <;> obtain rfl := Host.Outcome.next.inj next <;>
      exact h.of_idle idle {} (SameStorage.storageInv {} h.storage)

theorem Inv.hostStep {a : HostAction} {s t : State} (h : Inv s) (idle : s.inflating = none)
    (next : hostStep a s = .next t) : Inv t := by
  have storage := h.storage.hostStep next
  have cases := hostStep_cases a s
  rw [next] at cases
  cases cases with
  | command _ command exec => exact h.hostCommand idle command exec
  | plain => exact h.of_idle idle {} storage
  | read => exact h.of_idle idle {} storage
  | poke => exact h.of_idle idle {} storage

theorem Inv.step {s t : State} (h : Inv s) (next : step s = .next t) : Inv t := by
  rcases step_cases s with ⟨running, e⟩ | ⟨idle, a, rest, -, e⟩ | ⟨-, -, e⟩
  · obtain ⟨u, next', inv, -⟩ := streamStep_advances h running
    obtain rfl := Host.Outcome.next.inj ((e.symm.trans next).symm.trans next')
    exact inv
  · have queued : Inv { s with hostQueue := rest } :=
      h.of_idle idle {} (h.storage.congr rfl rfl rfl rfl rfl rfl rfl rfl rfl rfl)
    exact queued.hostStep idle (e.symm.trans next)
  · obtain rfl := Host.Outcome.next.inj (e.symm.trans next)
    exact h

/-! ## No faults, and the end of every INFLATE -/

/-- An instruction's meaning is a next state or a refusal. -/
theorem exec_ne_fault (i : Instr) (s : State) (f : Fault) : exec i s ≠ .fault f := by
  intro fault
  have meaning := exec_meaning i s
  rw [fault] at meaning
  cases meaning with
  | storedData copy =>
    cases flow : copyStored s.srem.toNat s <;> rw [flow] at copy <;> cases copy

theorem hostStep_ne_fault (a : HostAction) (s : State) (f : Fault) : hostStep a s ≠ .fault f := by
  intro fault
  have cases := hostStep_cases a s
  rw [fault] at cases
  cases cases with
  | command _ _ exec => exact exec_ne_fault _ _ _ exec

theorem step_advances {s : State} (h : Inv s) (running : s.inflating ≠ none) : Advances (weight s) (step s) := by
  rw [step_of_inflating running]
  exact streamStep_advances h running

theorem weight_le (s : State) : weight s ≤ 2 * workLeft s + 1 := Nat.add_le_add_left (Phase.rest_le _) _

theorem runFor_succ {s t : State} (next : step s = .next t) (k : Nat) : runFor (k + 1) s = runFor k t := by
  rw [runFor, next]

/-- A running INFLATE ends after at most one step more than its measure. -/
theorem exists_runFor_ended (n : Nat) {s : State} (h : Inv s) (running : s.inflating ≠ none) (le : weight s ≤ n) :
    ∃ k t, k ≤ n + 1 ∧ runFor k s = some t ∧ t.inflating = none := by
  induction n generalizing s with
  | zero =>
    obtain ⟨t, next, -, less⟩ := step_advances h running
    refine ⟨1, t, le_rfl, runFor_succ next 0, ?_⟩
    by_contra still
    have := less still
    omega
  | succ n ih =>
    obtain ⟨t, next, inv, less⟩ := step_advances h running
    by_cases ended : t.inflating = none
    · exact ⟨1, t, by omega, runFor_succ next 0, ended⟩
    · obtain ⟨k, u, few, run, stopped⟩ := ih inv ended (Nat.le_of_lt_succ ((less ended).trans_le le))
      exact ⟨k + 1, u, by omega, (runFor_succ next k).trans run, stopped⟩

end Sys2Proof.Machine

namespace Sys2Proof

open Machine

/-- Settles O58: a running INFLATE steps from the invariant to the invariant, and between commands little of what it reads changes. -/
theorem stepKeepsTheInvariant : Obligations.StepKeepsTheInvariant := fun _ _ h next => h.step next

/-- Settles O59: under the invariant every read answers, with room for one more byte, so no fetch stops; no other step has a fault. -/
theorem noStepFaults : Obligations.NoStepFaults := by
  intro s h
  constructor
  · intro f fault
    rcases step_cases s with ⟨running, -⟩ | ⟨-, a, rest, -, e⟩ | ⟨-, -, e⟩
    · obtain ⟨t, next, -⟩ := step_advances h running
      cases next.symm.trans fault
    · exact hostStep_ne_fault _ _ _ (e.symm.trans fault)
    · cases e.symm.trans fault
  · intro running
    obtain ⟨t, next, -⟩ := step_advances h running
    exact ⟨t, next⟩

/-- Settles O60: every step lowers the measure, which is at most twice the work left and one. -/
theorem inflateTerminates : Obligations.InflateTerminates := fun s h running =>
  exists_runFor_ended (2 * workLeft s + 1) h running (weight_le s)

end Sys2Proof
